-- ==== Sys2Proof/Word.lean ====
section
/-! DEFINITION. The words the block computes with (00_scope.md R10): 32-bit unsigned integers with
wraparound arithmetic, and the bytes a host lays onto them (R15). Addition, subtraction and exclusive or of
words are BitVec's `+`, `-` and `^^^`, which are modulo 2^32 and bitwise as 40_cipher.md R100 to R102 say. -/

namespace Sys2Proof

/-- A word: "a fixed-width 32-bit unsigned integer with wraparound arithmetic" (R10). -/
abbrev Word := BitVec 32

/-- A byte lane of the host's bus (R15, R64). -/
abbrev Byte := BitVec 8

end Sys2Proof
end

