-- ==== Sys2Proof/Machine/Arith.lean ====
section
/-! DEFINITION. Rotations (40_cipher.md R103, R104) and the byte, field and word mapping
(00_scope.md R9, R15). -/

namespace Sys2Proof.Machine

/-- `n[4:0]`: the low five bits of a rotation amount, all that count of it (R103). -/
def rotAmount (n : Word) : Nat := (n.extractLsb' 0 5).toNat

/-- `rotl(x, n)` (R103). -/
def rotl (x n : Word) : Word :=
  if rotAmount n = 0 then x else (x <<< rotAmount n) ||| (x >>> (32 - rotAmount n))

/-- `rotr(x, n)` (R104). -/
def rotr (x n : Word) : Word :=
  if rotAmount n = 0 then x else (x >>> rotAmount n) ||| (x <<< (32 - rotAmount n))

/-- `le32(b0, b1, b2, b3)` (R15): b0 + 2^8 b1 + 2^16 b2 + 2^24 b3, little-endian. -/
def le32 (b0 b1 b2 b3 : Byte) : Word :=
  BitVec.ofNat 32 (b0.toNat + 2 ^ 8 * b1.toNat + 2 ^ 16 * b2.toNat + 2 ^ 24 * b3.toNat)

/-- `bytes_le32(w)` (R15), and the byte lanes of the bus word (20_memory.md R64): lane k is bits [8k+7 : 8k]. -/
def bytesLe32 (w : Word) : List Byte :=
  [w.extractLsb' 0 8, w.extractLsb' 8 8, w.extractLsb' 16 8, w.extractLsb' 24 8]

/-- A field `v` of a word at its lowest bit `lo`, the other bits 0 (00_scope.md R9). -/
def atBit {n : Nat} (lo : Nat) (v : BitVec n) : Word := v.setWidth 32 <<< lo

end Sys2Proof.Machine
end

