-- ==== Sys2Proof/Config.lean ====
section
/-! DEFINITION. The parameters of one block (00_scope.md R6) with the default "this spec's hardware takes", and the
free values the spec leaves open (20_memory.md R69, 10_state.md R50, R6 LATENCY). The parameters with one legal value
are in the types: W in `Word`, BLOCK_BYTES and KEY_BYTES in the block of two words and the key of four. -/

namespace Sys2Proof

/-- The parameters of R6 that have more than one legal value. Every rule that names one takes it from the state it
works on, whose configuration this is; log 1. -/
structure Params where
  /-- R_MAX, the largest round count KEYSET accepts -/
  rMax : Nat
  /-- SURV_MAX, the entries of the survivor buffer -/
  survMax : Nat
  /-- P_MAGIC, the key schedule's first word -/
  pMagic : Word
  /-- Q_MAGIC, the key schedule's increment -/
  qMagic : Word
  deriving DecidableEq, Repr

/-- T_MAX, the words of the subkey RAM: 2(R_MAX + 1) (R6). -/
def Params.tMax (c : Params) : Nat := 2 * (c.rMax + 1)

/-- The legal ranges of R6: R_MAX 20 to 255, SURV_MAX 1 to 64, P_MAGIC and Q_MAGIC odd. -/
structure Params.Legal (c : Params) : Prop where
  rMax_ge : 20 ≤ c.rMax
  rMax_le : c.rMax ≤ 255
  survMax_ge : 1 ≤ c.survMax
  survMax_le : c.survMax ≤ 64
  pMagic_odd : c.pMagic.getLsbD 0 = true
  qMagic_odd : c.qMagic.getLsbD 0 = true

end Sys2Proof

namespace Sys2Proof.Config

/-- The defaults of R6, which "this spec's hardware takes": R_MAX and SURV_MAX (log 1); P_MAGIC and Q_MAGIC (D4, G1,
G2: general knowledge) PRESUMED, unsafe, log 2. -/
def defaults : Params where
  rMax := 255
  survMax := 16
  pMagic := 0xB7E15163#32
  qMagic := 0x9E3779B9#32

/-- C_WORDS, the words of a key (R6: 4 only). -/
def cWords : Nat := 4

/-- Word `i` of the `d`-th free draw. A VOLATILE read while busy takes word 0 of its draw (R69: "a model draws
any 32-bit value, under no law"); a reset event after State.reset takes the unspecified contents of the subkey
RAM and the survivor buffer (R50, R200). DESIGN CHOICE, safe, logs 4 and 5. -/
opaque freeWord : Nat → Nat → Word

/-- LATENCY (R6: "finite, unbounded above", OPEN): how many host turns pass between the acceptance that makes
draw `d` and the completion of that command, where the environment's list gives none. DESIGN CHOICE, log 6. -/
opaque latency : Nat → Nat

end Sys2Proof.Config
end

