-- ==== Sys2Proof/Syntax.lean ====
section
/-! DEFINITION. The instructions: the command words of 30_encoding.md R82, one constructor per row of
spec/opcode_table.json. A command has no operand field (R80, R86), so no constructor has an argument. -/

namespace Sys2Proof

/-- The nine commands of the opcode map (30_encoding.md R82). -/
inductive Instr where
  /-- NOP, no operation (42_control.md R160) -/
  | nop
  /-- KEYSET, expand the key (40_cipher.md R113) -/
  | keyset
  /-- ENCRYPT, encrypt one block (40_cipher.md R117) -/
  | encrypt
  /-- DECRYPT, decrypt one block (40_cipher.md R118) -/
  | decrypt
  /-- SEARCH1, phase 1 sweep over S3 (41_search.md R135) -/
  | search1
  /-- FILTER1, phase 1 re-filter with pair 3 (41_search.md R136) -/
  | filter1
  /-- SEARCH2, phase 2 sweep over S2 (41_search.md R137) -/
  | search2
  /-- FILTER2, phase 2 re-filter with pair 3 (41_search.md R138) -/
  | filter2
  /-- CLEAR, clear the search state and the sticky status (42_control.md R161) -/
  | clear
  deriving DecidableEq, Repr

end Sys2Proof
end

