-- ==== Sys2Proof/Decode.lean ====
section
/-! DEFINITION. The decoder of command words, total on every word and on any bytes (30_encoding.md R81 to R85),
and after it the encoder (R82). Every command word is 32 bits and decodes by R85 alone (R87). -/

namespace Sys2Proof

/-- Why bytes are no command. The first two are the two ways a word is ILLEGAL (R83); the third is no word. -/
inductive DecodeError where
  /-- bits [31:8] are not 0 (R83) -/
  | reservedBits
  /-- an OP outside the opcode map (R83) -/
  | undefinedOp
  /-- fewer than the four bytes of a command word (R80) -/
  | truncated
  deriving DecidableEq, Repr

/-- The OP field, bits 7:0 (R81). -/
def opField (v : Word) : BitVec 8 := v.extractLsb' 0 8

/-- The RSV field, bits 31:8 (R81). -/
def rsvField (v : Word) : BitVec 24 := v.extractLsb' 8 24

/-- `decode(v)` (R85); an error is ILLEGAL. -/
def decode (v : Word) : Except DecodeError Instr :=
  if rsvField v ≠ 0#24 then .error .reservedBits
  else match (opField v).toNat with
    | 0x00 => .ok .nop
    | 0x01 => .ok .keyset
    | 0x02 => .ok .encrypt
    | 0x03 => .ok .decrypt
    | 0x10 => .ok .search1
    | 0x11 => .ok .filter1
    | 0x12 => .ok .search2
    | 0x13 => .ok .filter2
    | 0x20 => .ok .clear
    | _ => .error .undefinedOp

/-- A command word as a little-endian host lays it out (20_memory.md R64), with the bytes after it.
DEDUCED, safe, log 14: the block itself takes the word whole from the CMD write (R77). -/
def decodeBytes : List Byte → Except DecodeError (Instr × List Byte)
  | b0 :: b1 :: b2 :: b3 :: rest =>
    match decode (Machine.le32 b0 b1 b2 b3) with
    | .ok i => .ok (i, rest)
    | .error e => .error e
  | _ => .error .truncated

/-- The opcode of a command (R82). -/
def opcode : Instr → BitVec 8
  | .nop => 0x00#8
  | .keyset => 0x01#8
  | .encrypt => 0x02#8
  | .decrypt => 0x03#8
  | .search1 => 0x10#8
  | .filter1 => 0x11#8
  | .search2 => 0x12#8
  | .filter2 => 0x13#8
  | .clear => 0x20#8

/-- `word(mnemonic)`: the command word of a command, RSV = 0 above OP (R81, R82). -/
def encode (i : Instr) : Word := (opcode i).setWidth 32

/-- The command word of a table row's bits: `nbits` bits of `w`, every bit above them 0. -/
def tableWord (nbits w : Nat) : Word := BitVec.ofNat 32 (w % 2 ^ nbits)

/-- What the decoder reads from the table row whose first `nbits` bits are `w`, laid out in memory as the
little-endian word it is. -/
def decodeTableWord (nbits w : Nat) : Option Instr :=
  match decodeBytes (Machine.bytesLe32 (tableWord nbits w)) with
  | .ok (i, _) => some i
  | .error _ => none

end Sys2Proof
end

