-- ==== Sys2Proof/Machine/Regs.lean ====
section
/-! DEFINITION. The register map of the window (10_state.md R23): the registers by name, their offsets, which
are VOLATILE (20_memory.md R69), and which register an offset names. -/

namespace Sys2Proof.Machine

/-- The registers of R23 by name. The three windows take an index: survivor slots 0 to 63, subkey words 0 to 511. -/
inductive Reg where
  | id | params | cmd | status | intEn | rounds | survCount
  | key0 | key1 | key2 | key3
  | dinA | dinB | doutA | doutB
  | p1A | p1B | c1A | c1B
  | p2A | p2B | c2A | c2B
  | p3A | p3B | c3A | c3B
  | resS0 | resS1 | resS2 | resS3
  | survCand (n : Nat)
  | survPaired (n : Nat)
  | subkey (m : Nat)
  deriving DecidableEq, Repr

/-- The bytes of the register window (R23, R60). -/
def windowBytes : Nat := 0x1000

/-- The slots the survivor window has room for, and the words of the subkey window (R61). -/
def survSlots : Nat := 64
def subkeySlots : Nat := 512

/-- The offset column of R23. -/
def regOffset : Reg → Nat
  | .id => 0x000
  | .params => 0x004
  | .cmd => 0x008
  | .status => 0x00C
  | .intEn => 0x010
  | .rounds => 0x014
  | .survCount => 0x018
  | .key0 => 0x020
  | .key1 => 0x024
  | .key2 => 0x028
  | .key3 => 0x02C
  | .dinA => 0x030
  | .dinB => 0x034
  | .doutA => 0x038
  | .doutB => 0x03C
  | .p1A => 0x040
  | .p1B => 0x044
  | .c1A => 0x048
  | .c1B => 0x04C
  | .p2A => 0x050
  | .p2B => 0x054
  | .c2A => 0x058
  | .c2B => 0x05C
  | .p3A => 0x060
  | .p3B => 0x064
  | .c3A => 0x068
  | .c3B => 0x06C
  | .resS0 => 0x070
  | .resS1 => 0x074
  | .resS2 => 0x078
  | .resS3 => 0x07C
  | .survCand n => 0x200 + 8 * n
  | .survPaired n => 0x204 + 8 * n
  | .subkey m => 0x800 + 4 * m

/-- The registers of R23 that have an offset of their own, outside the survivor and subkey windows. -/
def namedRegs : List Reg :=
  [.id, .params, .cmd, .status, .intEn, .rounds, .survCount, .key0, .key1, .key2, .key3,
   .dinA, .dinB, .doutA, .doutB, .p1A, .p1B, .c1A, .c1B, .p2A, .p2B, .c2A, .c2B,
   .p3A, .p3B, .c3A, .c3B, .resS0, .resS1, .resS2, .resS3]

/-- The register at an aligned offset of the window of a block with parameters `c`, none where the offset is reserved (R23,
R51, R61): survivor slots n ≥ SURV_MAX and subkey slots m ≥ T_MAX are reserved, also while busy. DEDUCED, unsafe, log 15. -/
def regAt (c : Params) (addr : Nat) : Option Reg :=
  if addr < 0x200 then namedRegs.find? (fun r => regOffset r == addr)
  else if addr < 0x200 + 8 * c.survMax then
    if addr % 8 = 0 then some (.survCand ((addr - 0x200) / 8))
    else if addr % 8 = 4 then some (.survPaired ((addr - 0x200) / 8))
    else none
  else if 0x800 ≤ addr ∧ addr < 0x800 + 4 * c.tMax then
    if addr % 4 = 0 then some (.subkey ((addr - 0x800) / 4)) else none
  else none

/-- VOLATILE (20_memory.md R69): the registers whose value a command may change at completion and whose read
while busy is therefore unspecified. -/
def regVolatile : Reg → Bool
  | .doutA | .doutB | .survCount | .resS0 | .resS1 | .resS2 | .resS3 => true
  | .survCand _ | .survPaired _ | .subkey _ => true
  | .id | .params | .cmd | .status | .intEn | .rounds => false
  | .key0 | .key1 | .key2 | .key3 | .dinA | .dinB => false
  | .p1A | .p1B | .c1A | .c1B | .p2A | .p2B | .c2A | .c2B | .p3A | .p3B | .c3A | .c3B => false

end Sys2Proof.Machine
end

