-- ==== Sys2Proof/Machine/Bus.lean ====
section
/-! DEFINITION. What the host does to the block: the bus operations of 00_scope.md R13 and 30_encoding.md R88,
and the host assembler's statements with their expansions (R88, R89). -/

namespace Sys2Proof.Machine

/-- One thing the outside world does to the block in one host turn. -/
inductive HostOp where
  /-- `MemRead(addr, width)` (R13) -/
  | read (addr width : Nat)
  /-- `MemWrite(addr, width, v)` (R13) -/
  | write (addr width : Nat) (v : Word)
  /-- a 32-bit read whose masked value must be `want`, or the program fails (R88, R89) -/
  | check (addr : Nat) (mask want : Word)
  /-- `WAIT`: read STATUS, and again while bit 0 (BUSY) is 1 (R89) -/
  | waitIdle
  /-- the host makes no access in this turn -/
  | idle
  /-- the reset input is asserted (70_reset_and_hazards.md R200) -/
  | reset
  deriving DecidableEq, Repr

/-- Which pair a LDPAIR loads (R89: q = 1, 2, 3; 10_state.md R43). -/
inductive PairNo where
  | one | two | three
  deriving DecidableEq, Repr

/-- The statements of the host assembler (R88) and its pseudo-instructions (R89). -/
inductive HostStmt where
  | wr (r : Reg) (v : Word)
  | rd (r : Reg)
  | rdEq (r : Reg) (v : Word)
  | cmd (i : Instr)
  | rawCmd (v : Word)
  | wait
  | issue (i : Instr)
  | check (code : BitVec 4)
  | ldkey (k0 k1 k2 k3 : Word)
  | ldpair (q : PairNo) (pa pb ca cb : Word)
  | ldblk (a b : Word)
  deriving DecidableEq, Repr

/-- `WR <reg>, <value>` as its bus operation (R88). -/
def wrOp (r : Reg) (v : Word) : HostOp := .write (regOffset r) 4 v

/-- The registers `Pq_A, Pq_B, Cq_A, Cq_B` of pair q (10_state.md R43). -/
def pairRegs : PairNo → Reg × Reg × Reg × Reg
  | .one => (.p1A, .p1B, .c1A, .c1B)
  | .two => (.p2A, .p2B, .c2A, .c2B)
  | .three => (.p3A, .p3B, .c3A, .c3B)

/-- The bits [11:8] of STATUS that CHECK compares (R89). -/
def errcodeMask : Word := 0x00000F00#32

/-- A statement's bus operations (R88 column "encoding", R89 column "expansion"). -/
def expandStmt : HostStmt → List HostOp
  | .wr r v => [wrOp r v]
  | .rd r => [.read (regOffset r) 4]
  | .rdEq r v => [.check (regOffset r) (BitVec.allOnes 32) v]
  | .cmd i => [wrOp .cmd (encode i)]
  | .rawCmd v => [wrOp .cmd v]
  | .wait => [.waitIdle]
  | .issue i => [wrOp .cmd (encode i), .waitIdle]
  | .check code => [.check (regOffset .status) errcodeMask (atBit 8 code)]
  | .ldkey k0 k1 k2 k3 => [wrOp .key0 k0, wrOp .key1 k1, wrOp .key2 k2, wrOp .key3 k3]
  | .ldpair q pa pb ca cb =>
    let r := pairRegs q
    [wrOp r.1 pa, wrOp r.2.1 pb, wrOp r.2.2.1 ca, wrOp r.2.2.2 cb]
  | .ldblk a b => [wrOp .dinA a, wrOp .dinB b]

/-- A host program's bus operations, in program order (R88: one statement a line). -/
def expandProgram (p : List HostStmt) : List HostOp := p.flatMap expandStmt

end Sys2Proof.Machine
end

