-- ==== Sys2Proof/Machine/State.lean ====
section
/-! DEFINITION. The block's state as plain data (10_state.md R22), the state right after reset (R50,
70_reset_and_hazards.md R200), and the reasons a step can stop. The block has no memory that a program or a
command addresses (20_memory.md R60): its storage arrays are the subkey RAM and the survivor buffer. -/

namespace Sys2Proof.Machine

/-- A block of two words A and B (00_scope.md R16). -/
structure Block where
  a : Word
  b : Word
  deriving DecidableEq, Repr

/-- A plaintext/ciphertext pair `(P, C)` (R43: Pq_A, Pq_B, Cq_A, Cq_B). -/
structure Pair where
  p : Block
  c : Block
  deriving DecidableEq, Repr

/-- The four key words K[0..3] (R40). -/
structure Key where
  k0 : Word
  k1 : Word
  k2 : Word
  k3 : Word
  deriving DecidableEq, Repr

/-- The recovered subkeys RES_S0 to RES_S3 (R44). -/
structure Results where
  s0 : Word
  s1 : Word
  s2 : Word
  s3 : Word
  deriving DecidableEq, Repr

/-- A survivor entry: a guessed subkey word and its paired derived subkey (R45). -/
structure Survivor where
  cand : Word
  paired : Word
  deriving DecidableEq, Repr

/-- The STATUS fields that have storage (R27). BUSY is PEND ≠ none (R48), ERR and IRQ are functions (R30, R49). -/
structure Status where
  /-- bit 1, the last accepted command has completed (R29) -/
  done : Bool
  /-- bit 3, the subkey RAM holds a valid expansion (R31) -/
  keyed : Bool
  /-- bit 4, the last SEARCH or FILTER left exactly one survivor (R32) -/
  resolved : Bool
  /-- bit 5, the survivor buffer overflowed (R33) -/
  sovf : Bool
  /-- bit 6, a host write was dropped while BUSY (R34) -/
  overrun : Bool
  /-- bits 11:8, error code of the last accepted command (R35) -/
  errcode : BitVec 4
  /-- bits 13:12, phase of the survivor buffer contents (R36) -/
  sphase : BitVec 2
  deriving DecidableEq, Repr

/-- The MODEL's own fields, none of them the spec's (R18): the outside world's inputs still to come and the
counter of free values. DESIGN CHOICE, logs 5, 6 and 8. -/
structure Env where
  /-- what the host does next, first entry first; empty: the host does nothing (log 8) -/
  hostOps : List HostOp
  /-- the latencies the environment fixes for the next accepted commands; where the list is empty a latency is
  the free value `Config.latency` (log 6) -/
  latencies : List Nat
  /-- host turns left before the engine performs the pending command (log 6) -/
  wait : Nat
  /-- how many free values were drawn (log 5) -/
  draws : Nat
  /-- the data the host's last read returned, none before the first (log 8) -/
  lastRead : Option Word
  deriving DecidableEq, Repr

/-- The state of the block (R22). -/
structure State where
  /-- the parameters this block is built with (00_scope.md R6): configuration and no state of the spec's (R18).
  State carries them so that every function of the model takes them; no step changes them. DESIGN CHOICE, safe,
  log 1. -/
  params : Params
  /-- STATUS (R27) -/
  status : Status
  /-- INT_EN.DONE_IE, bit 0 of INT_EN; its other bits are reserved (R37) -/
  doneIe : Bool
  /-- ROUNDS (R38) -/
  rounds : Word
  /-- SURV_COUNT (R39) -/
  survCount : Word
  /-- KEY0 to KEY3 (R40) -/
  key : Key
  /-- DIN_A, DIN_B (R41) -/
  din : Block
  /-- DOUT_A, DOUT_B (R42) -/
  dout : Block
  /-- P1_A, P1_B, C1_A, C1_B (R43) -/
  pair1 : Pair
  /-- P2_A, P2_B, C2_A, C2_B (R43) -/
  pair2 : Pair
  /-- P3_A, P3_B, C3_A, C3_B (R43) -/
  pair3 : Pair
  /-- RES_S0 to RES_S3 (R44) -/
  res : Results
  /-- the survivor buffer, SURV_MAX entries (R45) -/
  surv : List Survivor
  /-- the subkey RAM, T_MAX words (R46) -/
  subkeyRam : List Word
  /-- R_ACT, the round count of the current keying (R47) -/
  rAct : Nat
  /-- PEND, the command word accepted and not yet completed (R48) -/
  pend : Option Word
  /-- the model's own fields -/
  env : Env
  deriving DecidableEq, Repr

/-- Why a step stops with a fault. Each is the host's, none the block's (60_exceptions.md R170, R180). -/
inductive Fault where
  /-- `UnsupportedAccess(addr, n)`: a narrow or misaligned host access inside the window (20_memory.md R63).
  Raised by the host's read and write. Safe: the spec says a model faults the host on it (log 9). -/
  | unsupportedAccess (addr width : Nat)
  /-- A host access at offset 0x1000 or above, which is the platform's and not this block's (20_memory.md R61).
  Raised by the host's read and write. Safe (log 9). -/
  | outsideWindow (addr : Nat)
  /-- `RD <reg> == <value>` or `CHECK <code>` read another value: "the program fails" (30_encoding.md R88, R89).
  Raised by the host's check. Safe (log 12). -/
  | hostCheckFailed (addr : Nat) (got want : Word)
  deriving DecidableEq, Repr

/-- Why a step gives no meaning. -/
inductive Refusal where
  /-- An instruction whose meaning is not written yet. Raised by no arm of `exec`: all nine commands have their
  meaning. Safe. -/
  | notModelled (mnemonic : String)
  deriving DecidableEq, Repr

/-- The block with parameters `c` right after reset (R50, R200): every register of R23 at its table value, STATUS = 0,
R_ACT = 0, PEND = none. The contents of the subkey RAM and of the survivor buffer are unspecified and masked (R50): zeros
here, DESIGN CHOICE, unsafe, log 3. The model's own fields: nothing placed, nothing drawn (logs 6 and 8). -/
def State.resetWith (c : Params) : State where
  params := c
  status :=
    { done := false, keyed := false, resolved := false, sovf := false, overrun := false,
      errcode := 0#4, sphase := 0#2 }
  doneIe := false
  rounds := 0#32
  survCount := 0#32
  key := { k0 := 0#32, k1 := 0#32, k2 := 0#32, k3 := 0#32 }
  din := { a := 0#32, b := 0#32 }
  dout := { a := 0#32, b := 0#32 }
  pair1 := { p := { a := 0#32, b := 0#32 }, c := { a := 0#32, b := 0#32 } }
  pair2 := { p := { a := 0#32, b := 0#32 }, c := { a := 0#32, b := 0#32 } }
  pair3 := { p := { a := 0#32, b := 0#32 }, c := { a := 0#32, b := 0#32 } }
  res := { s0 := 0#32, s1 := 0#32, s2 := 0#32, s3 := 0#32 }
  surv := List.replicate c.survMax { cand := 0#32, paired := 0#32 }
  subkeyRam := List.replicate c.tMax 0#32
  rAct := 0
  pend := none
  env := { hostOps := [], latencies := [], wait := 0, draws := 0, lastRead := none }

/-- The block right after reset, with the parameters this spec's hardware takes (R6, log 1). -/
def State.reset : State := State.resetWith Config.defaults

/-- The two storage arrays have their sizes: SURV_MAX entries (R45) and T_MAX words (R46). It is what a canonical
form is for a byte memory, which this block does not have (log 11). -/
abbrev Memory.wf (s : State) : Prop :=
  s.surv.length = s.params.survMax ∧ s.subkeyRam.length = s.params.tMax

end Sys2Proof.Machine
end

