-- ==== Sys2Proof/Machine/Flags.lean ====
section
/-! DEFINITION. The fields of STATUS that are functions of other state, the STATUS and INT_EN words as a host
reads them, and the host's writes of them (10_state.md R27 to R37, R48, R49). -/

namespace Sys2Proof.Machine

/-- STATUS.BUSY (R28, R48): 1 exactly when PEND ≠ none. -/
def busyBit (s : State) : Bool := s.pend.isSome

/-- STATUS.ERR (R30): 1 exactly when ERRCODE ≠ 0, against the example of 42_control.md R160. DEDUCED,
unsafe, log 17. -/
def errBit (s : State) : Bool := s.status.errcode != 0#4

/-- The interrupt output `irq` and STATUS.IRQ (R49, 60_exceptions.md R184): DONE and DONE_IE. -/
def irq (s : State) : Bool := s.status.done && s.doneIe

/-- STATUS as a host reads it, field by field as the table of R27 lays them out; bits 31:14 read 0. -/
def statusWord (s : State) : Word :=
  atBit 0 (BitVec.ofBool (busyBit s)) |||
  atBit 1 (BitVec.ofBool s.status.done) |||
  atBit 2 (BitVec.ofBool (errBit s)) |||
  atBit 3 (BitVec.ofBool s.status.keyed) |||
  atBit 4 (BitVec.ofBool s.status.resolved) |||
  atBit 5 (BitVec.ofBool s.status.sovf) |||
  atBit 6 (BitVec.ofBool s.status.overrun) |||
  atBit 7 (BitVec.ofBool (irq s)) |||
  atBit 8 s.status.errcode |||
  atBit 12 s.status.sphase

/-- A host write of v to STATUS while idle (R27): bit 1 clears DONE, bit 6 clears OVERRUN, all else is ignored. -/
def writeStatus (v : Word) (s : State) : State :=
  { s with
    status :=
      { s.status with
        done := s.status.done && !v.getLsbD 1
        overrun := s.status.overrun && !v.getLsbD 6 } }

/-- INT_EN as a host reads it (R37): DONE_IE in bit 0, the reserved bits 0. -/
def intEnWord (s : State) : Word := atBit 0 (BitVec.ofBool s.doneIe)

/-- A host write of INT_EN while idle (R37, 20_memory.md R70): DONE_IE takes bit 0. -/
def writeIntEn (v : Word) (s : State) : State := { s with doneIe := v.getLsbD 0 }

end Sys2Proof.Machine
end

