-- ==== Sys2Proof/Machine/Operands.lean ====
section
/-! DEFINITION. What commands take as operands from the state (30_encoding.md R86) and what the masked read windows
show of it (10_state.md R45 to R47). -/

namespace Sys2Proof.Machine

/-- T_ACT = 2(R_ACT + 1), the subkeys of the current keying (R47). -/
def tAct (s : State) : Nat := 2 * (s.rAct + 1)

/-- `S[m]`, word m of the subkey RAM. -/
def subkeyWord (s : State) (m : Nat) : Word := s.subkeyRam.getD m 0#32

/-- SUBKEY[m] as a host reads it (R46): S[m] when KEYED = 1 and m < T_ACT, else 0. -/
def subkeyRead (s : State) (m : Nat) : Word :=
  if s.status.keyed = true ∧ m < tAct s then subkeyWord s m else 0#32

/-- How many survivor entries are valid: min(SURV_COUNT, SURV_MAX) (R45). -/
def validCount (s : State) : Nat := min s.survCount.toNat s.params.survMax

/-- The valid survivor entries, in order: the operand of the FILTER commands (41_search.md R136, R138).
DEDUCED for SURV_COUNT above SURV_MAX, which no run reaches with SOVF = 0; safe, log 16. -/
def validSurvivors (s : State) : List Survivor := s.surv.take (validCount s)

/-- `SURV[n]`, entry n of the survivor buffer. -/
def survEntry (s : State) (n : Nat) : Survivor := s.surv.getD n { cand := 0#32, paired := 0#32 }

/-- SURV_CAND[n] as a host reads it (R45): the word when entry n is valid, else 0. -/
def survCandRead (s : State) (n : Nat) : Word :=
  if n < validCount s then (survEntry s n).cand else 0#32

/-- SURV_PAIRED[n] as a host reads it (R45). -/
def survPairedRead (s : State) (n : Nat) : Word :=
  if n < validCount s then (survEntry s n).paired else 0#32

/-- K[0..3] as a list (40_cipher.md R107). -/
def keyWords (k : Key) : List Word := [k.k0, k.k1, k.k2, k.k3]

end Sys2Proof.Machine
end

