-- ==== Sys2Proof/Machine/Ops.lean ====
section
/-! DEFINITION. The shared operations: accepting a command (30_encoding.md R84), completing one with or without an
error (60_exceptions.md R171, R172; the block's only form of exception, with no return: R187), the host's read and
write of a register (20_memory.md R68 to R71), and reset (70_reset_and_hazards.md R200). -/

namespace Sys2Proof.Machine

/-- The error codes of R172. -/
inductive ErrorCode where
  | illegal | notKeyed | rounds | inconclusive | ambiguous | sovf | sequence
  deriving DecidableEq, Repr

/-- The code column of R172. -/
def errorNumber : ErrorCode → BitVec 4
  | .illegal => 0x1#4
  | .notKeyed => 0x2#4
  | .rounds => 0x3#4
  | .inconclusive => 0x4#4
  | .ambiguous => 0x5#4
  | .sovf => 0x6#4
  | .sequence => 0x7#4

/-- `finish(code)` (R171): ERRCODE takes the code, PEND is none (so BUSY is 0), DONE is 1. -/
def finish (code : BitVec 4) (s : State) : State :=
  { s with status := { s.status with errcode := code, done := true }, pend := none }

/-- `complete()` (R171). -/
def complete (s : State) : State := finish 0x0#4 s

/-- `raise Error(code)` (R171): what taking an exception is on this block. -/
def raiseError (e : ErrorCode) (s : State) : State := finish (errorNumber e) s

/-- The next draw is used up. -/
def countDraw (s : State) : State := { s with env := { s.env with draws := s.env.draws + 1 } }

/-- The latency of the command now accepted: the environment's, else the free value (R6 LATENCY, log 6). -/
def nextLatency (s : State) : Nat :=
  match s.env.latencies with
  | k :: _ => k
  | [] => Config.latency s.env.draws

/-- `accept(v)` (30_encoding.md R84): PEND takes v (so BUSY is 1), DONE and ERRCODE are cleared, and the command's
latency is fixed. -/
def accept (v : Word) (s : State) : State :=
  { s with
    status := { s.status with done := false, errcode := 0x0#4 }
    pend := some v
    env :=
      { s.env with
        wait := nextLatency s
        latencies := s.env.latencies.tail
        draws := s.env.draws + 1 } }

/-- A register's read value while it is exact (10_state.md R24 to R46). -/
def regValue (r : Reg) (s : State) : Word :=
  match r with
  | .id => 0x52433501#32
  | .params => BitVec.ofNat 32 (s.params.rMax + 2 ^ 16 * s.params.survMax)
  | .cmd => 0#32
  | .status => statusWord s
  | .intEn => intEnWord s
  | .rounds => s.rounds
  | .survCount => s.survCount
  | .key0 => s.key.k0
  | .key1 => s.key.k1
  | .key2 => s.key.k2
  | .key3 => s.key.k3
  | .dinA => s.din.a
  | .dinB => s.din.b
  | .doutA => s.dout.a
  | .doutB => s.dout.b
  | .p1A => s.pair1.p.a
  | .p1B => s.pair1.p.b
  | .c1A => s.pair1.c.a
  | .c1B => s.pair1.c.b
  | .p2A => s.pair2.p.a
  | .p2B => s.pair2.p.b
  | .c2A => s.pair2.c.a
  | .c2B => s.pair2.c.b
  | .p3A => s.pair3.p.a
  | .p3B => s.pair3.p.b
  | .c3A => s.pair3.c.a
  | .c3B => s.pair3.c.b
  | .resS0 => s.res.s0
  | .resS1 => s.res.s1
  | .resS2 => s.res.s2
  | .resS3 => s.res.s3
  | .survCand n => survCandRead s n
  | .survPaired n => survPairedRead s n
  | .subkey m => subkeyRead s m

/-- A register's read is unspecified: BUSY = 1 and the register is VOLATILE (R69). -/
def readIsFree (r : Reg) (s : State) : Bool := busyBit s && regVolatile r

/-- The value a host read of an aligned offset of the window returns (R68, R69, R71). -/
def busReadValue (addr : Nat) (s : State) : Word :=
  match regAt s.params addr with
  | some r => if readIsFree r s = true then Config.freeWord s.env.draws 0 else regValue r s
  | none => 0#32

/-- The state a host read leaves: the block's own state unchanged (R68), the data with the host, and the draw used
up where the value was one. -/
def busRead (addr : Nat) (s : State) : State :=
  let s' := { s with env := { s.env with lastRead := some (busReadValue addr s) } }
  match regAt s.params addr with
  | some r => if readIsFree r s = true then countDraw s' else s'
  | none => s'

/-- A host write of v to a register while idle (R70): CMD accepts, STATUS is W1C, INT_EN takes bit 0, a RW register
takes v, a read-only register ignores it (R71). -/
def writeReg (r : Reg) (v : Word) (s : State) : State :=
  match r with
  | .cmd => accept v s
  | .status => writeStatus v s
  | .intEn => writeIntEn v s
  | .rounds => { s with rounds := v }
  | .key0 => { s with key := { s.key with k0 := v } }
  | .key1 => { s with key := { s.key with k1 := v } }
  | .key2 => { s with key := { s.key with k2 := v } }
  | .key3 => { s with key := { s.key with k3 := v } }
  | .dinA => { s with din := { s.din with a := v } }
  | .dinB => { s with din := { s.din with b := v } }
  | .p1A => { s with pair1 := { s.pair1 with p := { s.pair1.p with a := v } } }
  | .p1B => { s with pair1 := { s.pair1 with p := { s.pair1.p with b := v } } }
  | .c1A => { s with pair1 := { s.pair1 with c := { s.pair1.c with a := v } } }
  | .c1B => { s with pair1 := { s.pair1 with c := { s.pair1.c with b := v } } }
  | .p2A => { s with pair2 := { s.pair2 with p := { s.pair2.p with a := v } } }
  | .p2B => { s with pair2 := { s.pair2 with p := { s.pair2.p with b := v } } }
  | .c2A => { s with pair2 := { s.pair2 with c := { s.pair2.c with a := v } } }
  | .c2B => { s with pair2 := { s.pair2 with c := { s.pair2.c with b := v } } }
  | .p3A => { s with pair3 := { s.pair3 with p := { s.pair3.p with a := v } } }
  | .p3B => { s with pair3 := { s.pair3 with p := { s.pair3.p with b := v } } }
  | .c3A => { s with pair3 := { s.pair3 with c := { s.pair3.c with a := v } } }
  | .c3B => { s with pair3 := { s.pair3 with c := { s.pair3.c with b := v } } }
  | .resS0 => { s with res := { s.res with s0 := v } }
  | .resS1 => { s with res := { s.res with s1 := v } }
  | .resS2 => { s with res := { s.res with s2 := v } }
  | .resS3 => { s with res := { s.res with s3 := v } }
  | .id | .params | .survCount | .doutA | .doutB | .survCand _ | .survPaired _ | .subkey _ => s

/-- A host write of an aligned offset of the window (R70): while BUSY it is dropped, whatever the offset, and
OVERRUN is set (10_state.md R34); a reserved offset ignores it (R71). -/
def busWrite (addr : Nat) (v : Word) (s : State) : State :=
  if busyBit s = true then { s with status := { s.status with overrun := true } }
  else match regAt s.params addr with
    | some r => writeReg r v s
    | none => s

/-- Asserting the reset input (70_reset_and_hazards.md R200, R201): the reset state but for the outside world's
own fields, and with the unspecified contents of the subkey RAM and the survivor buffer (10_state.md R50) as free
words. DESIGN CHOICE, safe, logs 4 and 10. -/
def resetBlock (s : State) : State :=
  { State.resetWith s.params with
    subkeyRam := (List.range s.params.tMax).map fun m => Config.freeWord s.env.draws m
    surv := (List.range s.params.survMax).map fun n =>
      { cand := Config.freeWord s.env.draws (s.params.tMax + 2 * n)
        paired := Config.freeWord s.env.draws (s.params.tMax + 2 * n + 1) }
    env := { s.env with wait := 0, draws := s.env.draws + 1 } }

end Sys2Proof.Machine
end

