-- ==== Sys2Proof/Machine/Cipher.lean ====
section
/-! DEFINITION. The cipher engine: the key schedule, encryption and decryption functions (40_cipher.md R107, R110,
R111) and the commands KEYSET, ENCRYPT and DECRYPT (R113, R117, R118). -/

namespace Sys2Proof.Machine

/-- The key schedule's running state (R107): the words S, the working copy L of the key words (R109), the indices i
and j, and X and Y. It is local to one KEYSET (10_state.md R22). -/
structure MixState where
  s : List Word
  l : List Word
  i : Nat
  j : Nat
  x : Word
  y : Word
  deriving DecidableEq, Repr

/-- The initial words: S[0] = P, S[m] = S[m-1] + Q (R107); `prev` is S[m-1] + Q of the word before. -/
def initWords (q : Word) : Nat → Word → List Word
  | 0, _ => []
  | n + 1, w => w :: initWords q n (w + q)

/-- One mixing iteration (R107): the update of L[j] uses the X just written. -/
def mixStep (t : Nat) (m : MixState) : MixState :=
  let x := rotl (m.s.getD m.i 0#32 + m.x + m.y) 3#32
  let y := rotl (m.l.getD m.j 0#32 + x + m.y) (x + m.y)
  { s := m.s.set m.i x
    l := m.l.set m.j y
    i := (m.i + 1) % t
    j := (m.j + 1) % Config.cWords
    x := x
    y := y }

/-- `n` mixing iterations. -/
def mixLoop (t : Nat) : Nat → MixState → MixState
  | 0, m => m
  | n + 1, m => mixLoop t n (mixStep t m)

/-- `KeySchedule(K, R)` (R107) for the constants P and Q: the T = 2(R+1) words S[0..T-1]. -/
def keySchedule (p q : Word) (k : Key) (r : Nat) : List Word :=
  let t := 2 * (r + 1)
  (mixLoop t (3 * max t Config.cWords)
    { s := initWords q t p, l := keyWords k, i := 0, j := 0, x := 0#32, y := 0#32 }).s

/-- Round i of Encrypt (R110): the second line uses the A just computed. -/
def encryptRound (sub : Nat → Word) (i : Nat) (blk : Block) : Block :=
  let a := rotl (blk.a ^^^ blk.b) blk.b + sub (2 * i)
  let b := rotl (blk.b ^^^ a) a + sub (2 * i + 1)
  { a := a, b := b }

/-- Rounds 1 to r of Encrypt, in that order. -/
def encryptRounds (sub : Nat → Word) : Nat → Block → Block
  | 0, blk => blk
  | r + 1, blk => encryptRound sub (r + 1) (encryptRounds sub r blk)

/-- `Encrypt(S, R, A, B)` (R110). -/
def encryptBlock (sub : Nat → Word) (r : Nat) (blk : Block) : Block :=
  encryptRounds sub r { a := blk.a + sub 0, b := blk.b + sub 1 }

/-- Round i of Decrypt (R111): the second line uses the B just computed. -/
def decryptRound (sub : Nat → Word) (i : Nat) (blk : Block) : Block :=
  let b := rotr (blk.b - sub (2 * i + 1)) blk.a ^^^ blk.a
  let a := rotr (blk.a - sub (2 * i)) b ^^^ b
  { a := a, b := b }

/-- Rounds r down to 1 of Decrypt. -/
def decryptRounds (sub : Nat → Word) : Nat → Block → Block
  | 0, blk => blk
  | r + 1, blk => decryptRounds sub r (decryptRound sub (r + 1) blk)

/-- `Decrypt(S, R, A, B)` (R111). -/
def decryptBlock (sub : Nat → Word) (r : Nat) (blk : Block) : Block :=
  let d := decryptRounds sub r blk
  { a := d.a - sub 0, b := d.b - sub 1 }

/-- A new keying (R113, R114): the first T words of the subkey RAM are replaced, the others keep what they held;
R_ACT and KEYED are set. -/
def loadKeying (words : List Word) (r : Nat) (s : State) : State :=
  { s with
    subkeyRam := words ++ s.subkeyRam.drop words.length
    rAct := r
    status := { s.status with keyed := true } }

/-- KEYSET (R113, R115). -/
def execKeyset (s : State) : Host.Outcome State Fault Refusal :=
  .next
    (if s.params.rMax < s.rounds.toNat then raiseError .rounds s
     else
       complete
         (loadKeying (keySchedule s.params.pMagic s.params.qMagic s.key s.rounds.toNat) s.rounds.toNat s))

/-- A block operation gated by KEYED (R117 to R119): DOUT takes the result. -/
def cipherCommand (f : (Nat → Word) → Nat → Block → Block) (s : State) : State :=
  if s.status.keyed = false then raiseError .notKeyed s
  else complete { s with dout := f (subkeyWord s) s.rAct s.din }

/-- ENCRYPT (R117). -/
def execEncrypt (s : State) : Host.Outcome State Fault Refusal := .next (cipherCommand encryptBlock s)

/-- DECRYPT (R118). -/
def execDecrypt (s : State) : Host.Outcome State Fault Refusal := .next (cipherCommand decryptBlock s)

end Sys2Proof.Machine
end

