-- ==== Sys2Proof/Machine/Control.lean ====
section
/-! DEFINITION. The control commands NOP and CLEAR (42_control.md R160, R161). The block has no branch, jump, call,
return, system call or wait (R162, R163). -/

namespace Sys2Proof.Machine

/-- NOP (R160). -/
def execNop (s : State) : Host.Outcome State Fault Refusal := .next (complete s)

/-- The writes of CLEAR (R161): the survivor storage is not erased, only masked. -/
def clearSearch (s : State) : State :=
  { s with
    survCount := 0#32
    status := { s.status with sovf := false, resolved := false, sphase := 0#2, overrun := false } }

/-- CLEAR (R161). -/
def execClear (s : State) : Host.Outcome State Fault Refusal := .next (complete (clearSearch s))

end Sys2Proof.Machine
end

