-- ==== Sys2Proof/Machine/Search.lean ====
section
/-! DEFINITION. The subkey search unit: the candidate equations (41_search.md R130 to R132), sweep, refilter, commit
and result write (R139 to R142), and the commands SEARCH1, FILTER1, SEARCH2 and FILTER2 (R135 to R138). They read
no subkey RAM, no R_ACT, no KEY register and no KEYED bit (R146). -/

namespace Sys2Proof.Machine

/-- `Bmid(P, C, s3)` (R130). -/
def bmid (q : Pair) (s3 : Word) : Word := rotr (q.c.b - s3) q.c.a ^^^ q.c.a

/-- `Cand1(P, C, k)` (R131): the candidate S1 of a guess k of S3. -/
def cand1 (q : Pair) (k : Word) : Word := bmid q k - q.p.b

/-- `Cand2(P, C, s3, k)` (R132): the candidate S0 of a guess k of S2. -/
def cand2 (q : Pair) (s3 k : Word) : Word :=
  let bm := bmid q s3
  (rotr (q.c.a - k) bm ^^^ bm) - q.p.a

/-- What a sweep or a refilter gives: the number N of survivors and the list L kept. -/
structure Found where
  count : Nat
  list : List Survivor
  deriving DecidableEq, Repr

/-- How many values a word has, all of which a sweep tries (R139). -/
def wordSpace : Nat := 2 ^ 32

/-- One iteration of Sweep's loop (R139) for the value k: word equality of the two candidates; the list keeps the
first `cap` survivors. -/
def sweepStep (cap : Nat) (f1 f2 : Word → Word) (k : Word) (acc : Found) : Found :=
  if f1 k = f2 k then
    { count := acc.count + 1
      list := if acc.list.length < cap then acc.list ++ [{ cand := k, paired := f1 k }] else acc.list }
  else acc

/-- Sweep's loop over k = 0 .. n-1 in ascending order (R139). -/
def sweepBelow (cap : Nat) (f1 f2 : Word → Word) : Nat → Found
  | 0 => { count := 0, list := [] }
  | n + 1 => sweepStep cap f1 f2 (BitVec.ofNat 32 n) (sweepBelow cap f1 f2 n)

/-- `Sweep(f1, f2)` (R139): every one of the 2^32 values, never stopping early. -/
@[irreducible] def sweep (cap : Nat) (f1 f2 : Word → Word) : Found := sweepBelow cap f1 f2 wordSpace

/-- `Refilter(g1, g3, L)`'s list (R140): the candidates on which g1 and g3 agree, in list order, each with the
paired word recomputed from pair 1. -/
def refilter (g1 g3 : Word → Word) : List Survivor → List Survivor
  | [] => []
  | e :: rest =>
    if g1 e.cand = g3 e.cand then { cand := e.cand, paired := g1 e.cand } :: refilter g1 g3 rest
    else refilter g1 g3 rest

/-- The two phases of the search (10_state.md R36). -/
inductive Phase where
  | one | two
  deriving DecidableEq, Repr

/-- The value of SPHASE for a phase (R36). -/
def phaseNumber : Phase → BitVec 2
  | .one => 1#2
  | .two => 2#2

/-- `WriteResult(p, (k, a))` (R142). -/
def writeResult (p : Phase) (e : Survivor) (res : Results) : Results :=
  match p with
  | .one => { res with s3 := e.cand, s1 := e.paired }
  | .two => { res with s2 := e.cand, s0 := e.paired }

/-- The RES registers after a commit (R141, R142): written from the one survivor when N = 1, else as they were. -/
def resultOf (p : Phase) (r : Found) (res : Results) : Results :=
  match r.list with
  | e :: _ => if r.count = 1 then writeResult p e res else res
  | [] => res

/-- `Commit(p, N, L, is_search)` (R141): the entries beyond |L| keep what they held. -/
def commit (p : Phase) (r : Found) (isSearch : Bool) (s : State) : State :=
  { s with
    survCount := BitVec.ofNat 32 (min r.count 0xFFFFFFFF)
    surv := r.list ++ s.surv.drop r.list.length
    res := resultOf p r s.res
    status :=
      { s.status with
        sphase := if isSearch = true then phaseNumber p else s.status.sphase
        sovf := if isSearch = true then decide (s.params.survMax < r.count) else s.status.sovf
        resolved := decide (r.count = 1) } }

/-- How a SEARCH ends once committed (R135, R137, R144). -/
def searchEnd (r : Found) (s : State) : State :=
  if r.count = 0 then raiseError .inconclusive s
  else if s.params.survMax < r.count then raiseError .sovf s
  else complete s

/-- A SEARCH of phase p with the candidate functions of pairs 1 and 2 (R135, R137). -/
def searchCommand (p : Phase) (f1 f2 : Word → Word) (s : State) : State :=
  let r := sweep s.params.survMax f1 f2
  searchEnd r (commit p r true s)

/-- How a FILTER ends once committed (R136, R138). -/
def filterEnd (r : Found) (s : State) : State :=
  if r.count = 0 then raiseError .inconclusive s
  else if 1 < r.count then raiseError .ambiguous s
  else complete s

/-- A FILTER of phase p with the candidate functions of pairs 1 and 3: the preconditions in order (R145), then the
refilter of the valid survivors (R136, R138). -/
def filterCommand (p : Phase) (g1 g3 : Word → Word) (s : State) : State :=
  if s.status.sphase ≠ phaseNumber p then raiseError .sequence s
  else if s.status.sovf = true then raiseError .sovf s
  else
    let kept := refilter g1 g3 (validSurvivors s)
    let r : Found := { count := kept.length, list := kept }
    filterEnd r (commit p r false s)

/-- SEARCH1 (R135): phase 1 sweep over S3 with pairs 1 and 2. -/
def execSearch1 (s : State) : Host.Outcome State Fault Refusal :=
  .next (searchCommand .one (cand1 s.pair1) (cand1 s.pair2) s)

/-- FILTER1 (R136): phase 1 re-filter with pairs 1 and 3. -/
def execFilter1 (s : State) : Host.Outcome State Fault Refusal :=
  .next (filterCommand .one (cand1 s.pair1) (cand1 s.pair3) s)

/-- SEARCH2 (R137): phase 2 sweep over S2 with pairs 1 and 2 and the known S3 in RES_S3. -/
def execSearch2 (s : State) : Host.Outcome State Fault Refusal :=
  .next (searchCommand .two (cand2 s.pair1 s.res.s3) (cand2 s.pair2 s.res.s3) s)

/-- FILTER2 (R138): phase 2 re-filter with pairs 1 and 3 and the known S3 in RES_S3. -/
def execFilter2 (s : State) : Host.Outcome State Fault Refusal :=
  .next (filterCommand .two (cand2 s.pair1 s.res.s3) (cand2 s.pair3 s.res.s3) s)

end Sys2Proof.Machine
end

