-- ==== Sys2Proof/Machine/Dispatch.lean ====
section
/-! DEFINITION. One arm per command: what the engine does when it performs it (30_encoding.md R84). -/

namespace Sys2Proof.Machine

def exec (i : Instr) (s : State) : Host.Outcome State Fault Refusal :=
  match i with
  | .nop => Sys2Proof.Machine.execNop s
  | .keyset => Sys2Proof.Machine.execKeyset s
  | .encrypt => Sys2Proof.Machine.execEncrypt s
  | .decrypt => Sys2Proof.Machine.execDecrypt s
  | .search1 => Sys2Proof.Machine.execSearch1 s
  | .filter1 => Sys2Proof.Machine.execFilter1 s
  | .search2 => Sys2Proof.Machine.execSearch2 s
  | .filter2 => Sys2Proof.Machine.execFilter2 s
  | .clear => Sys2Proof.Machine.execClear s

end Sys2Proof.Machine
end

