-- ==== Sys2Proof/Machine/Turns.lean ====
section
/-! DEFINITION. The two agents' turns (00_scope.md R17, 60_exceptions.md R182): the engine performing the pending
command (30_encoding.md R84) and the host making its next access (20_memory.md R68, R70; 30_encoding.md R88, R89). -/

namespace Sys2Proof.Machine

/-- `perform()` (30_encoding.md R84) of the command word w: the command's own effect, or E_ILLEGAL and nothing else
where w is no command (R83, 60_exceptions.md R173). -/
def perform (w : Word) (s : State) : Host.Outcome State Fault Refusal :=
  match decode w with
  | .ok i => exec i s
  | .error _ => .next (raiseError .illegal s)

/-- The command word the engine performs now: PEND, once its latency has passed (R84, R216). -/
def engineReady (s : State) : Option Word :=
  match s.pend with
  | some w => if s.env.wait = 0 then some w else none
  | none => none

/-- Why an access is not one of the block's (20_memory.md R60 to R63): outside the window first, then narrow or
misaligned. -/
def accessFault (addr width : Nat) : Option Fault :=
  if windowBytes ≤ addr then some (.outsideWindow addr)
  else if width ≠ 4 ∨ addr % 4 ≠ 0 then some (.unsupportedAccess addr width)
  else none

/-- `MemRead(addr, width)` (R68): the data goes to the host. -/
def hostRead (addr width : Nat) (s : State) : Host.Outcome State Fault Refusal :=
  match accessFault addr width with
  | some f => .fault f
  | none => .next (busRead addr s)

/-- `MemWrite(addr, width, v)` (R70). -/
def hostWrite (addr width : Nat) (v : Word) (s : State) : Host.Outcome State Fault Refusal :=
  match accessFault addr width with
  | some f => .fault f
  | none => .next (busWrite addr v s)

/-- `RD <reg> == <value>` and `CHECK <code>` (30_encoding.md R88, R89): a read whose masked value must be `want`. -/
def hostCheck (addr : Nat) (mask want : Word) (s : State) : Host.Outcome State Fault Refusal :=
  match accessFault addr 4 with
  | some f => .fault f
  | none =>
    if busReadValue addr s &&& mask = want then .next (busRead addr s)
    else .fault (.hostCheckFailed addr (busReadValue addr s) want)

/-- `WAIT` (R89): one read of STATUS; it is done again in the host's next turn while BUSY is 1. -/
def hostWait (s : State) : Host.Outcome State Fault Refusal :=
  if busyBit s = true then
    .next (busRead (regOffset .status) { s with env := { s.env with hostOps := .waitIdle :: s.env.hostOps } })
  else .next (busRead (regOffset .status) s)

/-- One operation of the outside world. -/
def hostOp (op : HostOp) (s : State) : Host.Outcome State Fault Refusal :=
  match op with
  | .read addr width => hostRead addr width s
  | .write addr width v => hostWrite addr width v s
  | .check addr mask want => hostCheck addr mask want s
  | .waitIdle => hostWait s
  | .idle => .next s
  | .reset => .next (resetBlock s)

/-- A host turn passes: the pending command's remaining latency counts down, and the next operation is taken from
the list. -/
def passTurn (s : State) : State :=
  { s with env := { s.env with wait := s.env.wait - 1, hostOps := s.env.hostOps.tail } }

/-- The host's turn: its next operation, or none where its list is empty (log 8). -/
def hostTurn (s : State) : Host.Outcome State Fault Refusal :=
  match s.env.hostOps with
  | [] => .next (passTurn s)
  | op :: _ => hostOp op (passTurn s)

/-- Put a command word where the engine takes its next command from: PEND (10_state.md R21, R48), its latency
passed. -/
def placeCommand (w : Word) (s : State) : State :=
  { s with pend := some w, env := { s.env with wait := 0 } }

end Sys2Proof.Machine
end

