-- ==== Sys2Proof/Machine/Step.lean ====
section
/-! DEFINITION. One step of the machine: the engine's turn when a command is pending and its latency has passed,
the host's turn otherwise (30_encoding.md R84, 60_exceptions.md R182, 70_reset_and_hazards.md R216; log 6). -/

namespace Sys2Proof.Machine

def step (s : State) : Host.Outcome State Fault Refusal :=
  match engineReady s with
  | some w => perform w s
  | none => hostTurn s

/-- `s` with the command word whose first `nbits` bits are `w` placed where the very next step takes it (log 7). -/
def State.withFetchWord (s : State) (nbits w : Nat) : State := placeCommand (tableWord nbits w) s

end Sys2Proof.Machine
end

