-- ==== Sys2Proof/WellFormed.lean ====
section
/-! DEFINITION. Which terms stand for something the spec has. A command has no operand (30_encoding.md R86), so
every instruction is well formed; the checks are on register names, host accesses and host statements. -/

namespace Sys2Proof

/-- Every term of `Instr` is a command of the opcode map: there is no operand to check (R86). -/
def Instr.wf (_ : Instr) : Bool := true

/-- A register name is of the map of 10_state.md R23: survivor index 0 to 63, subkey index 0 to 511. -/
def Machine.Reg.wf : Machine.Reg → Bool
  | .survCand n => decide (n < Machine.survSlots)
  | .survPaired n => decide (n < Machine.survSlots)
  | .subkey m => decide (m < Machine.subkeySlots)
  | _ => true

/-- An access the block supports: one aligned 32-bit word of the window (20_memory.md R60, R62, R63). -/
def Machine.accessWf (addr width : Nat) : Bool :=
  decide (addr < Machine.windowBytes) && decide (addr % 4 = 0) && decide (width = 4)

/-- A host operation whose access, if it makes one, the block supports. -/
def Machine.HostOp.wf : Machine.HostOp → Bool
  | .read addr width => Machine.accessWf addr width
  | .write addr width _ => Machine.accessWf addr width
  | .check addr _ _ => Machine.accessWf addr 4
  | .waitIdle => true
  | .idle => true
  | .reset => true

/-- A host statement whose register is of the map (30_encoding.md R88). -/
def Machine.HostStmt.wf : Machine.HostStmt → Bool
  | .wr r _ => r.wf
  | .rd r => r.wf
  | .rdEq r _ => r.wf
  | .cmd i => i.wf
  | .issue i => i.wf
  | .rawCmd _ | .wait | .check _ | .ldkey _ _ _ _ | .ldpair _ _ _ _ _ | .ldblk _ _ => true

end Sys2Proof
end

