-- ==== Sys2Proof/Safety.lean ====
section
/-! DEFINITION. The terms claims use: the invariant of the machine, when two states show a host the same, what a
host's next access is, and pairs of one one-round keying. -/

namespace Sys2Proof.Machine

/-- The invariant of the machine: what the rules say holds of STATUS, of the survivor buffer and of the keying in
every state from reset on. -/
structure BlockInv (s : State) : Prop where
  /-- the parameters are in their legal ranges (00_scope.md R6) -/
  legal : s.params.Legal
  /-- the storage arrays have their sizes (10_state.md R45, R46) -/
  storage : Memory.wf s
  /-- R_ACT is 0 to R_MAX (R47) -/
  rounds : s.rAct ≤ s.params.rMax
  /-- error codes 0x8 to 0xF are never produced (R35) -/
  errcode : s.status.errcode.toNat < 8
  /-- the SPHASE value 3 is never produced (R36) -/
  sphase : s.status.sphase.toNat < 3
  /-- acceptance clears DONE and ERRCODE (R29, R35), and nothing sets them while a command is pending -/
  busyClean : s.pend ≠ none → s.status.done = false ∧ s.status.errcode = 0#4
  /-- SOVF = 1 exactly when SURV_COUNT > SURV_MAX (R33, R39) -/
  sovf : s.status.sovf = true ↔ s.params.survMax < s.survCount.toNat
  /-- RESOLVED = 1 exactly when one survivor is left (R32) -/
  resolved : s.status.resolved = true ↔ s.survCount = 1#32
  /-- no survivors without a search phase (R36, 42_control.md R161) -/
  noPhase : s.status.sphase = 0#2 → s.survCount = 0#32
  /-- the valid survivors are in ascending order of CAND (R45, 41_search.md R148) -/
  ascending : (validSurvivors s).Pairwise fun x y => x.cand.toNat < y.cand.toNat
  /-- KEYED = 1: the subkey RAM holds a valid expansion for R_ACT rounds (R31) -/
  keyed : s.status.keyed = true →
    ∃ k, s.subkeyRam.take (tAct s) = keySchedule s.params.pMagic s.params.qMagic k s.rAct
  /-- R_ACT is 0 until a KEYSET completes (R47) -/
  unkeyed : s.status.keyed = false → s.rAct = 0

/-- The block's own state is the same in both, whatever the model's own fields are. -/
def SameBlock (s t : State) : Prop := { t with env := s.env } = s

/-- Two states that differ in masked storage only: survivor entries that are not valid (R45) and subkey words
beyond T_ACT, or all of them when not keyed (R46). -/
structure SameView (s t : State) : Prop where
  rest : { t with surv := s.surv, subkeyRam := s.subkeyRam } = s
  survivors : validSurvivors s = validSurvivors t
  subkeys : s.status.keyed = true → ∀ m, m < tAct s → subkeyWord s m = subkeyWord t m

/-- The host has the turn, and `op` is what it does with it. -/
def HostNext (s : State) (op : HostOp) : Prop := engineReady s = none ∧ s.env.hostOps.head? = some op

/-- The engine has the turn, and `w` is the command word it performs. -/
def EngineNext (s : State) (w : Word) : Prop := s.pend = some w ∧ s.env.wait = 0

/-- The words on which two candidate functions agree, in ascending order: the survivors of a sweep (41_search.md
R139). It lists 2^32 words: to be reasoned about, never evaluated. -/
@[irreducible] def agreeing (f1 f2 : Word → Word) : List Word :=
  ((List.range wordSpace).map (BitVec.ofNat 32)).filter fun k => decide (f1 k = f2 k)

/-- The registers a host reads and writes whole (10_state.md R23, access RW; 20_memory.md R70), but for INT_EN. -/
def rwRegs : List Reg :=
  [.rounds, .key0, .key1, .key2, .key3, .dinA, .dinB, .p1A, .p1B, .c1A, .c1B, .p2A, .p2B, .c2A, .c2B,
   .p3A, .p3B, .c3A, .c3B, .resS0, .resS1, .resS2, .resS3]

/-- The reserved offsets (10_state.md R51): 0x01C, 0x080 to 0x1FF, 0x400 to 0x7FF, survivor slots n ≥ SURV_MAX and
subkey slots m ≥ T_MAX, of a block with parameters `c`. -/
def reservedOffset (c : Params) (addr : Nat) : Prop :=
  addr = 0x01C ∨ (0x080 ≤ addr ∧ addr < 0x200) ∨ (0x400 ≤ addr ∧ addr < 0x800) ∨
    (∃ n, c.survMax ≤ n ∧ n < survSlots ∧ (addr = 0x200 + 8 * n ∨ addr = 0x204 + 8 * n)) ∨
    (∃ m, c.tMax ≤ m ∧ m < subkeySlots ∧ addr = 0x800 + 4 * m)

/-- The four subkeys of a one-round keying (00_scope.md R8). -/
def oneRoundKeys (s0 s1 s2 s3 : Word) : Nat → Word
  | 0 => s0
  | 1 => s1
  | 2 => s2
  | 3 => s3
  | _ => 0#32

/-- The pair's ciphertext is the one-round encryption of its plaintext under these subkeys (41_search.md R133). -/
def PairOf (s0 s1 s2 s3 : Word) (q : Pair) : Prop :=
  q.c = encryptBlock (oneRoundKeys s0 s1 s2 s3) 1 q.p

end Sys2Proof.Machine
end

