-- ==== Sys2Proof/Certificates/Slice0/Obligations.lean ====
section
/-! DEFINITION. The statements about the model, for the provers. Each docstring names the rule of spec/ it
formalises. Where a statement rests on a value or a behaviour of the model's own choice, its docstring says so and
names the log entry. -/

open Sys2Proof Sys2Proof.Machine

/-! ## Encoding -/

/-- Decoding and encoding agree on every word and on every list of bytes (30_encoding.md R82, R85; the byte layout is
20_memory.md R64, log 14). -/
def Obligations.DecodeInvertsEncode : Prop :=
  (∀ (v : Word) (i : Instr), decode v = .ok i ↔ v = encode i) ∧
  (∀ (bytes : List Byte) (i : Instr) (rest : List Byte),
    decodeBytes bytes = .ok (i, rest) ↔ bytes = bytesLe32 (encode i) ++ rest)

/-- R85: decode is total on every 32-bit word, ILLEGAL (an error) where bits [31:8] are not 0 or OP is not in the map. -/
def Obligations.DecodeTotalByCases : Prop :=
  ∀ v : Word,
    (v.extractLsb' 8 24 ≠ 0#24 → ∃ e, decode v = .error e) ∧
    (v.extractLsb' 8 24 = 0#24 →
      (v.extractLsb' 0 8 = 0x00#8 → decode v = .ok .nop) ∧
      (v.extractLsb' 0 8 = 0x01#8 → decode v = .ok .keyset) ∧
      (v.extractLsb' 0 8 = 0x02#8 → decode v = .ok .encrypt) ∧
      (v.extractLsb' 0 8 = 0x03#8 → decode v = .ok .decrypt) ∧
      (v.extractLsb' 0 8 = 0x10#8 → decode v = .ok .search1) ∧
      (v.extractLsb' 0 8 = 0x11#8 → decode v = .ok .filter1) ∧
      (v.extractLsb' 0 8 = 0x12#8 → decode v = .ok .search2) ∧
      (v.extractLsb' 0 8 = 0x13#8 → decode v = .ok .filter2) ∧
      (v.extractLsb' 0 8 = 0x20#8 → decode v = .ok .clear) ∧
      (v.extractLsb' 0 8 ∉ [0x00#8, 0x01#8, 0x02#8, 0x03#8, 0x10#8, 0x11#8, 0x12#8, 0x13#8, 0x20#8] →
        ∃ e, decode v = .error e))

/-- A few words of the map (R82) and of the illegal space (R83), as vector X-3 lists them. -/
def Obligations.SampleCommandWordsDecode : Prop :=
  decode 0x00000000#32 = .ok .nop ∧ decode 0x00000003#32 = .ok .decrypt ∧
  decode 0x00000010#32 = .ok .search1 ∧ decode 0x00000013#32 = .ok .filter2 ∧
  decode 0x00000020#32 = .ok .clear ∧
  decode 0x00000101#32 = .error .reservedBits ∧ decode 0x00000004#32 = .error .undefinedOp

/-- A step runs the decoded command: where the engine has its turn, the step is `exec` of the command that PEND decodes
to, with nothing around it (30_encoding.md R84); and a command placed by `withFetchWord` is the one that runs (log 7). -/
def Obligations.StepPerformsPendingCommand : Prop :=
  (∀ (s : State) (w : Word) (i : Instr), EngineNext s w → decode w = .ok i → i.wf = true → step s = exec i s) ∧
  (∀ (s : State) (i : Instr),
    step (s.withFetchWord 32 (encode i).toNat) = exec i (placeCommand (encode i) s))

/-- R83, R173: a word with bits [31:8] ≠ 0, or with an OP in 0x04 to 0x0F, 0x14 to 0x1F, 0x21 to 0xFF, is accepted like
any other and completes with E_ILLEGAL (0x1) and no other state change. -/
def Obligations.IllegalWordReportsIllegalOnly : Prop :=
  ∀ v : Word,
    (v.extractLsb' 8 24 ≠ 0#24 ∨
      (let op := (v.extractLsb' 0 8).toNat
       (0x04 ≤ op ∧ op ≤ 0x0F) ∨ (0x14 ≤ op ∧ op ≤ 0x1F) ∨ (0x21 ≤ op ∧ op ≤ 0xFF))) →
    (∀ s : State, s.pend = none → ∃ e : Env, busWrite 0x008 v s =
      { s with status := { s.status with done := false, errcode := 0x0#4 }, pend := some v, env := e }) ∧
    (∀ s : State, EngineNext s v → step s =
      .next { s with status := { s.status with errcode := 0x1#4, done := true }, pend := none })

/-! ## Control commands and completion -/

/-- NOP (42_control.md, R160): its word; it completes and does nothing else: ERRCODE 0, DONE 1, BUSY 0, OVERRUN kept. The
rule's example starts from a STATUS word that 10_state.md R30 excludes (log 17). -/
def Obligations.NopOnlyCompletes : Prop :=
  decode 0x00000000#32 = .ok .nop ∧
  ∀ s : State, exec .nop s =
    .next { s with status := { s.status with errcode := 0x0#4, done := true }, pend := none }

/-- R161: CLEAR zeroes SURV_COUNT, SOVF, RESOLVED, SPHASE and OVERRUN and touches nothing else; every survivor entry then
reads 0; FILTER1 and FILTER2 then raise E_SEQUENCE, and SPHASE stays 0 until a SEARCH is performed. -/
def Obligations.ClearResetsSearchState : Prop :=
  decode 0x00000020#32 = .ok .clear ∧
  (∀ s : State, ∃ t : State, exec .clear s = .next t ∧
    t = { s with
          survCount := 0#32
          status :=
            { s.status with
              sovf := false, resolved := false, sphase := 0#2, overrun := false, errcode := 0x0#4, done := true }
          pend := none } ∧
    (∀ n, regValue (.survCand n) t = 0#32 ∧ regValue (.survPaired n) t = 0#32) ∧
    (∀ i ∈ [Instr.filter1, Instr.filter2], ∃ u : State, exec i t = .next u ∧ u.status.errcode = 0x7#4)) ∧
  (∀ s t : State, s.status.sphase = 0#2 → step s = .next t → t.status.sphase ≠ 0#2 →
    EngineNext s (encode .search1) ∨ EngineNext s (encode .search2))

/-- R28, R29: BUSY is set and DONE cleared when a command is accepted; every command word, legal or not, completes in one
step, which clears BUSY and sets DONE whether or not it raised an error; the host never writes BUSY but by CMD, and clears
DONE by writing 1 to bit 1 of STATUS. -/
def Obligations.EveryCommandWordCompletes : Prop :=
  (∀ (s : State) (v : Word), s.pend = none →
    busyBit (busWrite 0x008 v s) = true ∧ (busWrite 0x008 v s).status.done = false) ∧
  (∀ (s : State) (w : Word), EngineNext s w →
    ∃ t : State, step s = .next t ∧ busyBit t = false ∧ t.pend = none ∧ t.status.done = true ∧ t.env = s.env) ∧
  (∀ (s : State) (addr : Nat) (v : Word), addr ≠ 0x008 ∨ s.pend ≠ none →
    busyBit (busWrite addr v s) = busyBit s) ∧
  (∀ (s : State) (v : Word), s.pend = none →
    (busWrite 0x00C v s).status.done = (s.status.done && !v.getLsbD 1))

/-- R181: one command reports exactly one code, the first of its own check order. -/
def Obligations.OneCodeInCheckOrder : Prop :=
  ∀ s : State,
    (∀ w, (∀ i, decode w ≠ .ok i) → ∃ t : State, perform w s = .next t ∧ t.status.errcode = 0x1#4) ∧
    (∀ i ∈ [Instr.nop, Instr.clear], ∃ t : State, exec i s = .next t ∧ t.status.errcode = 0x0#4) ∧
    (∃ t : State, exec .keyset s = .next t ∧
      t.status.errcode = if s.params.rMax < s.rounds.toNat then 0x3#4 else 0x0#4) ∧
    (∀ i ∈ [Instr.encrypt, Instr.decrypt], ∃ t : State, exec i s = .next t ∧
      t.status.errcode = if s.status.keyed = false then 0x2#4 else 0x0#4) ∧
    (∃ t : State, exec .search1 s = .next t ∧
      (let n := (agreeing (cand1 s.pair1) (cand1 s.pair2)).length
       t.status.errcode = if n = 0 then 0x4#4 else if s.params.survMax < n then 0x6#4 else 0x0#4)) ∧
    (∃ t : State, exec .search2 s = .next t ∧
      (let n := (agreeing (cand2 s.pair1 s.res.s3) (cand2 s.pair2 s.res.s3)).length
       t.status.errcode = if n = 0 then 0x4#4 else if s.params.survMax < n then 0x6#4 else 0x0#4)) ∧
    (∃ t : State, exec .filter1 s = .next t ∧
      (let n := ((validSurvivors s).filter fun e => decide (cand1 s.pair1 e.cand = cand1 s.pair3 e.cand)).length
       t.status.errcode =
         if s.status.sphase ≠ 1#2 then 0x7#4 else if s.status.sovf = true then 0x6#4
         else if n = 0 then 0x4#4 else if 2 ≤ n then 0x5#4 else 0x0#4)) ∧
    (∃ t : State, exec .filter2 s = .next t ∧
      (let n := ((validSurvivors s).filter fun e =>
          decide (cand2 s.pair1 s.res.s3 e.cand = cand2 s.pair3 s.res.s3 e.cand)).length
       t.status.errcode =
         if s.status.sphase ≠ 2#2 then 0x7#4 else if s.status.sovf = true then 0x6#4
         else if n = 0 then 0x4#4 else if 2 ≤ n then 0x5#4 else 0x0#4))

/-- The frame of every command (10_state.md R34, R37 to R47, R31 to R36; 20_memory.md R77): which fields a performed
command leaves as they were. No command writes an operand register of its own, INT_EN, the block's parameters or the
model's own fields. -/
def Obligations.CommandFrames : Prop :=
  ∀ (i : Instr) (s t : State), exec i s = .next t →
    t.doneIe = s.doneIe ∧ t.rounds = s.rounds ∧ t.key = s.key ∧ t.din = s.din ∧
    t.pair1 = s.pair1 ∧ t.pair2 = s.pair2 ∧ t.pair3 = s.pair3 ∧ t.params = s.params ∧ t.env = s.env ∧
    (i ≠ .clear → t.status.overrun = s.status.overrun) ∧
    (i ≠ .keyset → t.subkeyRam = s.subkeyRam ∧ t.rAct = s.rAct ∧ t.status.keyed = s.status.keyed) ∧
    (i ≠ .encrypt → i ≠ .decrypt → t.dout = s.dout) ∧
    (i ∈ [Instr.nop, .keyset, .encrypt, .decrypt, .clear] → t.surv = s.surv ∧ t.res = s.res) ∧
    (i ∈ [Instr.nop, .keyset, .encrypt, .decrypt] →
      t.survCount = s.survCount ∧ t.status.resolved = s.status.resolved) ∧
    (i ∉ [Instr.search1, .search2, .clear] →
      t.status.sovf = s.status.sovf ∧ t.status.sphase = s.status.sphase) ∧
    (i ∈ [Instr.search1, .filter1] → t.res.s0 = s.res.s0 ∧ t.res.s2 = s.res.s2) ∧
    (i ∈ [Instr.search2, .filter2] → t.res.s1 = s.res.s1 ∧ t.res.s3 = s.res.s3)

/-! ## Word arithmetic -/

/-- R103, R104: the rotations by the shift-and-or formula on the low five bits of the amount, with the rules' examples;
and bit by bit they are fixed-width rotations. -/
def Obligations.RotationsByLowFiveBits : Prop :=
  (∀ x n : Word,
    let sh := n.toNat % 32
    rotl x n = (if sh = 0 then x else (x <<< sh) ||| (x >>> (32 - sh))) ∧
    rotr x n = (if sh = 0 then x else (x >>> sh) ||| (x <<< (32 - sh))) ∧
    (∀ k, k < 32 → (rotl x n).getLsbD ((k + sh) % 32) = x.getLsbD k ∧
      (rotr x n).getLsbD k = x.getLsbD ((k + sh) % 32))) ∧
  rotl 0x80000001#32 1#32 = 0x00000003#32 ∧ rotl 0x12345678#32 32#32 = 0x12345678#32 ∧
  rotl 0x12345678#32 36#32 = 0x23456781#32 ∧ rotl 0x12345678#32 0xFFFFFFFF#32 = 0x091A2B3C#32 ∧
  rotr 0x12345678#32 4#32 = 0x81234567#32 ∧ rotr 0x00000001#32 1#32 = 0x80000000#32

/-- R105: the rotation laws, for all words and all amounts. -/
def Obligations.RotationsInvertEachOther : Prop :=
  ∀ x n : Word,
    rotl (rotr x n) n = x ∧ rotr (rotl x n) n = x ∧
    rotl x n = rotr x (32#32 - BitVec.ofNat 32 (n.toNat % 32)) ∧
    rotl x n = rotl x (BitVec.ofNat 32 (n.toNat % 32))

/-! ## Cipher engine -/

/-- R107: the key schedule, for all constants, keys and round counts, as two recurrences with no array. `x t` and `y t`
are the X and Y of iteration t; S[i] was last written T iterations before (at the start it is P + iQ), L[j] four
iterations before (at the start K[j]); the result's S[i] is the last write of it. With the rule's worked example (default
P and Q, log 2). -/
def Obligations.KeyScheduleIsTwoRecurrences : Prop :=
  (∀ (p q : Word) (k : Key) (r : Nat),
    let tt := 2 * (r + 1)
    let n := 3 * max tt 4
    (keySchedule p q k r).length = tt ∧
    ∃ x y : Nat → Word,
      (∀ t, t < n →
        x t = rotl ((if t < tt then p + BitVec.ofNat 32 t * q else x (t - tt)) +
          (if t = 0 then 0#32 else x (t - 1)) + (if t = 0 then 0#32 else y (t - 1))) 3#32 ∧
        y t = rotl ((if t < 4 then [k.k0, k.k1, k.k2, k.k3].getD t 0#32 else y (t - 4)) + x t +
          (if t = 0 then 0#32 else y (t - 1))) (x t + (if t = 0 then 0#32 else y (t - 1)))) ∧
      (∀ i, i < tt → (keySchedule p q k r).getD i 0#32 = x (n - tt + i))) ∧
  keySchedule Config.defaults.pMagic Config.defaults.qMagic ⟨0#32, 0#32, 0#32, 0#32⟩ 1 =
    [0x0970A4A7#32, 0x72B5661F#32, 0x7939B522#32, 0xD7BA7E35#32]

/-- R110: encryption round by round, in ascending order after the whitening; with no rounds it is the whitening alone;
with the rule's worked example (default P and Q, log 2). -/
def Obligations.EncryptByAscendingRounds : Prop :=
  (∀ (sub : Nat → Word) (r : Nat) (a0 b0 : Word), ∃ a b : Nat → Word,
    a 0 = a0 + sub 0 ∧ b 0 = b0 + sub 1 ∧
    (∀ i, 1 ≤ i → i ≤ r →
      a i = rotl (a (i - 1) ^^^ b (i - 1)) (b (i - 1)) + sub (2 * i) ∧
      b i = rotl (b (i - 1) ^^^ a i) (a i) + sub (2 * i + 1)) ∧
    encryptBlock sub r ⟨a0, b0⟩ = ⟨a r, b r⟩) ∧
  (∀ (sub : Nat → Word) (a0 b0 : Word), encryptBlock sub 0 ⟨a0, b0⟩ = ⟨a0 + sub 0, b0 + sub 1⟩) ∧
  encryptBlock (fun m =>
      (keySchedule Config.defaults.pMagic Config.defaults.qMagic ⟨0#32, 0#32, 0#32, 0#32⟩ 1).getD m 0#32) 1
    ⟨0#32, 0#32⟩ = ⟨0xB71C967E#32, 0x4924FA4D#32⟩

/-- R111: decryption round by round, in descending order before the whitening is taken off; with the rule's worked example
(default P and Q, log 2). -/
def Obligations.DecryptByDescendingRounds : Prop :=
  (∀ (sub : Nat → Word) (r : Nat) (ar br : Word), ∃ a b : Nat → Word,
    a r = ar ∧ b r = br ∧
    (∀ i, 1 ≤ i → i ≤ r →
      b (i - 1) = rotr (b i - sub (2 * i + 1)) (a i) ^^^ a i ∧
      a (i - 1) = rotr (a i - sub (2 * i)) (b (i - 1)) ^^^ b (i - 1)) ∧
    decryptBlock sub r ⟨ar, br⟩ = ⟨a 0 - sub 0, b 0 - sub 1⟩) ∧
  decryptBlock (fun m =>
      (keySchedule Config.defaults.pMagic Config.defaults.qMagic ⟨0#32, 0#32, 0#32, 0#32⟩ 1).getD m 0#32) 1
    ⟨0xB71C967E#32, 0x4924FA4D#32⟩ = ⟨0#32, 0#32⟩

/-- R112: decryption inverts encryption and encryption decryption, for every S, every R and every block. -/
def Obligations.DecryptInvertsEncrypt : Prop :=
  ∀ (sub : Nat → Word) (r : Nat) (x : Block),
    decryptBlock sub r (encryptBlock sub r x) = x ∧ encryptBlock sub r (decryptBlock sub r x) = x

/-- R113, R109: KEYSET within the range writes the subkeys, R_ACT and KEYED and completes; beyond it E_ROUNDS; it writes
nothing else, the key words among it; with the rule's example (default P and Q, log 2). -/
def Obligations.KeysetLoadsExpansion : Prop :=
  decode 0x00000001#32 = .ok .keyset ∧
  (∀ s : State, s.rounds.toNat ≤ s.params.rMax → exec .keyset s =
    .next { s with
      subkeyRam := keySchedule s.params.pMagic s.params.qMagic s.key s.rounds.toNat ++
        s.subkeyRam.drop (2 * (s.rounds.toNat + 1))
      rAct := s.rounds.toNat
      status := { s.status with keyed := true, errcode := 0x0#4, done := true }
      pend := none }) ∧
  (∀ s : State, s.params.rMax < s.rounds.toNat → exec .keyset s =
    .next { s with status := { s.status with errcode := 0x3#4, done := true }, pend := none }) ∧
  (∀ s : State, s.params = Config.defaults → s.key = ⟨0#32, 0#32, 0#32, 0#32⟩ → s.rounds = 1#32 →
    ∃ t : State, exec .keyset s = .next t ∧
    regValue (.subkey 0) t = 0x0970A4A7#32 ∧ regValue (.subkey 1) t = 0x72B5661F#32 ∧
    regValue (.subkey 2) t = 0x7939B522#32 ∧ regValue (.subkey 3) t = 0xD7BA7E35#32 ∧
    regValue (.subkey 4) t = 0#32)

/-- R115, R175: KEYSET with ROUNDS > R_MAX raises E_ROUNDS and changes nothing else, so the previous keying stays usable:
the subkey window reads as before, and ENCRYPT and DECRYPT give what they gave. -/
def Obligations.KeysetRefusesLargeRounds : Prop :=
  ∀ s : State, s.params.rMax < s.rounds.toNat → ∃ t : State, exec .keyset s = .next t ∧
    t = { s with status := { s.status with errcode := 0x3#4, done := true }, pend := none } ∧
    (∀ m, regValue (.subkey m) t = regValue (.subkey m) s) ∧
    (∀ i ∈ [Instr.encrypt, Instr.decrypt], exec i t = exec i s)

/-- R116, R108: after a successful KEYSET the observable keying depends only on the key words and ROUNDS it read (on one
block, that is with the same parameters); later writes of KEY0 to KEY3 or ROUNDS change nothing of it; the search unit's
state is not affected. -/
def Obligations.RekeyForgetsOldKeying : Prop :=
  (∀ s t : State, s.params = t.params → s.key = t.key → s.rounds = t.rounds →
    s.rounds.toNat ≤ s.params.rMax →
    ∃ s' t' : State, exec .keyset s = .next s' ∧ exec .keyset t = .next t' ∧
      s'.rAct = t'.rAct ∧ s'.status.keyed = true ∧ t'.status.keyed = true ∧
      (∀ m, regValue (.subkey m) s' = regValue (.subkey m) t') ∧
      (∀ blk, encryptBlock (subkeyWord s') s'.rAct blk = encryptBlock (subkeyWord t') t'.rAct blk ∧
        decryptBlock (subkeyWord s') s'.rAct blk = decryptBlock (subkeyWord t') t'.rAct blk) ∧
      s'.surv = s.surv ∧ s'.survCount = s.survCount ∧ s'.res = s.res ∧
      s'.status.sphase = s.status.sphase ∧ s'.status.sovf = s.status.sovf ∧
      s'.status.resolved = s.status.resolved) ∧
  (∀ (s : State) (r : Reg) (v : Word), r ∈ [Reg.key0, .key1, .key2, .key3, .rounds] →
    (busWrite (regOffset r) v s).subkeyRam = s.subkeyRam ∧ (busWrite (regOffset r) v s).rAct = s.rAct ∧
    (busWrite (regOffset r) v s).status.keyed = s.status.keyed)

/-- R114: KEYSET leaves the words from T on; they read 0 in the SUBKEY window; ENCRYPT and DECRYPT give the same whatever
they hold. -/
def Obligations.SubkeyWordsBeyondKeyingUnread : Prop :=
  (∀ s : State, s.rounds.toNat ≤ s.params.rMax → ∃ t : State, exec .keyset s = .next t ∧
    ∀ m, 2 * (s.rounds.toNat + 1) ≤ m → subkeyWord t m = subkeyWord s m) ∧
  (∀ (s : State) (m : Nat), tAct s ≤ m → regValue (.subkey m) s = 0#32) ∧
  (∀ (s t : State) (ram : List Word) (i : Instr), i ∈ [Instr.encrypt, Instr.decrypt] →
    (∀ m, m < tAct s → ram.getD m 0#32 = subkeyWord s m) → exec i s = .next t →
    exec i { s with subkeyRam := ram } = .next { t with subkeyRam := ram })

/-- R117: ENCRYPT, keyed and not keyed; twice in a row it gives the same DOUT; with the rule's example. -/
def Obligations.EncryptWritesDout : Prop :=
  decode 0x00000002#32 = .ok .encrypt ∧
  (∀ s : State, s.status.keyed = true → exec .encrypt s =
    .next { s with
      dout := encryptBlock (subkeyWord s) s.rAct s.din
      status := { s.status with errcode := 0x0#4, done := true }
      pend := none }) ∧
  (∀ s : State, s.status.keyed = false → exec .encrypt s =
    .next { s with status := { s.status with errcode := 0x2#4, done := true }, pend := none }) ∧
  (∀ s t u : State, exec .encrypt s = .next t → exec .encrypt t = .next u → u.dout = t.dout) ∧
  (∀ s : State, s.status.keyed = true → s.rAct = 1 → subkeyWord s 0 = 0x0970A4A7#32 →
    subkeyWord s 1 = 0x72B5661F#32 → subkeyWord s 2 = 0x7939B522#32 → subkeyWord s 3 = 0xD7BA7E35#32 →
    s.din = ⟨0#32, 0#32⟩ →
    ∃ t : State, exec .encrypt s = .next t ∧ t.dout = ⟨0xB71C967E#32, 0x4924FA4D#32⟩)

/-- R118: DECRYPT, keyed and not keyed; with the rule's two examples. -/
def Obligations.DecryptWritesDout : Prop :=
  decode 0x00000003#32 = .ok .decrypt ∧
  (∀ s : State, s.status.keyed = true → exec .decrypt s =
    .next { s with
      dout := decryptBlock (subkeyWord s) s.rAct s.din
      status := { s.status with errcode := 0x0#4, done := true }
      pend := none }) ∧
  (∀ s : State, s.status.keyed = false → exec .decrypt s =
    .next { s with status := { s.status with errcode := 0x2#4, done := true }, pend := none }) ∧
  (∀ s : State, s.status.keyed = true → s.rAct = 1 → subkeyWord s 0 = 0x0970A4A7#32 →
    subkeyWord s 1 = 0x72B5661F#32 → subkeyWord s 2 = 0x7939B522#32 → subkeyWord s 3 = 0xD7BA7E35#32 →
    ∃ t : State, exec .decrypt s = .next t ∧
      (s.din = ⟨0xB71C967E#32, 0x4924FA4D#32⟩ → t.dout = ⟨0#32, 0#32⟩) ∧
      (s.din = ⟨0#32, 0#32⟩ → t.dout = ⟨0x6A24B45B#32, 0xB5901BAC#32⟩))

/-- R119, R174: ENCRYPT and DECRYPT with KEYED = 0 raise E_NOT_KEYED and change nothing else; DOUT keeps its value. -/
def Obligations.UnkeyedCipherRefused : Prop :=
  ∀ (s : State) (i : Instr), i ∈ [Instr.encrypt, Instr.decrypt] → s.status.keyed = false →
    exec i s = .next { s with status := { s.status with errcode := 0x2#4, done := true }, pend := none }

/-- The round trip on the block itself (40_cipher.md R112, 20_memory.md R65): ENCRYPT, its output written to DIN by two
word writes, then DECRYPT gives the input back; and the other way round. -/
def Obligations.DecryptCommandUndoesEncrypt : Prop :=
  ∀ s : State, s.status.keyed = true →
    (∃ t u : State, exec .encrypt s = .next t ∧
      exec .decrypt (busWrite 0x034 t.dout.b (busWrite 0x030 t.dout.a t)) = .next u ∧
      u.dout = s.din ∧ u.status.errcode = 0x0#4) ∧
    (∃ t u : State, exec .decrypt s = .next t ∧
      exec .encrypt (busWrite 0x034 t.dout.b (busWrite 0x030 t.dout.a t)) = .next u ∧
      u.dout = s.din ∧ u.status.errcode = 0x0#4)

/-! ## Subkey search -/

/-- The identities of 41_search.md R130 to R133: on a pair of one one-round keying, the candidate equations at the true
subkeys give the true paired subkeys. -/
def Obligations.CandidatesRecoverSubkeys : Prop :=
  ∀ (s0 s1 s2 s3 : Word) (q : Pair), PairOf s0 s1 s2 s3 q →
    q.c.a = rotl ((q.p.a + s0) ^^^ (q.p.b + s1)) (q.p.b + s1) + s2 ∧
    q.c.b = rotl ((q.p.b + s1) ^^^ q.c.a) q.c.a + s3 ∧
    bmid q s3 = q.p.b + s1 ∧ cand1 q s3 = s1 ∧ cand2 q s3 s2 = s0

/-- The attack's phase 1 is sound (41_search.md R133, R135, R136): with pairs of one keying, the true S3 survives the
sweep and the filter with its true S1, neither ends E_INCONCLUSIVE, and a resolution gives the true words. -/
def Obligations.TrueS3SurvivesPhase1 : Prop :=
  ∀ (s0 s1 s2 s3 : Word) (s : State), s.params.Legal → PairOf s0 s1 s2 s3 s.pair1 →
    (PairOf s0 s1 s2 s3 s.pair2 → ∃ t : State, exec .search1 s = .next t ∧
      s3 ∈ agreeing (cand1 s.pair1) (cand1 s.pair2) ∧
      t.survCount ≠ 0#32 ∧ t.status.errcode ≠ 0x4#4 ∧
      (t.status.sovf = false → ⟨s3, s1⟩ ∈ validSurvivors t) ∧
      (t.status.resolved = true → t.res.s3 = s3 ∧ t.res.s1 = s1)) ∧
    (PairOf s0 s1 s2 s3 s.pair3 → s.status.sphase = 1#2 → s.status.sovf = false →
      (∃ e ∈ validSurvivors s, e.cand = s3) → ∃ t : State, exec .filter1 s = .next t ∧
      ⟨s3, s1⟩ ∈ validSurvivors t ∧ t.status.errcode ≠ 0x4#4 ∧
      (t.status.resolved = true → t.res.s3 = s3 ∧ t.res.s1 = s1))

/-- The attack's phase 2 is sound (41_search.md R133, R137, R138), once RES_S3 holds the true S3. -/
def Obligations.TrueS2SurvivesPhase2 : Prop :=
  ∀ (s0 s1 s2 s3 : Word) (s : State), s.params.Legal → PairOf s0 s1 s2 s3 s.pair1 → s.res.s3 = s3 →
    (PairOf s0 s1 s2 s3 s.pair2 → ∃ t : State, exec .search2 s = .next t ∧
      s2 ∈ agreeing (cand2 s.pair1 s3) (cand2 s.pair2 s3) ∧
      t.survCount ≠ 0#32 ∧ t.status.errcode ≠ 0x4#4 ∧
      (t.status.sovf = false → ⟨s2, s0⟩ ∈ validSurvivors t) ∧
      (t.status.resolved = true → t.res.s2 = s2 ∧ t.res.s0 = s0)) ∧
    (PairOf s0 s1 s2 s3 s.pair3 → s.status.sphase = 2#2 → s.status.sovf = false →
      (∃ e ∈ validSurvivors s, e.cand = s2) → ∃ t : State, exec .filter2 s = .next t ∧
      ⟨s2, s0⟩ ∈ validSurvivors t ∧ t.status.errcode ≠ 0x4#4 ∧
      (t.status.resolved = true → t.res.s2 = s2 ∧ t.res.s0 = s0))

/-- R139: a sweep counts every one of the 2^32 words on which the two functions agree, and keeps the first `cap` of them
in ascending order with the value there; the count is 2^32 where they agree everywhere and 0 where they agree nowhere. -/
def Obligations.SweepCountsAllWords : Prop :=
  ∀ (cap : Nat) (f1 f2 : Word → Word),
    (sweep cap f1 f2).count = (agreeing f1 f2).length ∧
    (sweep cap f1 f2).list = ((agreeing f1 f2).take cap).map (fun k => ⟨k, f1 k⟩) ∧
    (sweep cap f1 f2).count ≤ 2 ^ 32 ∧
    ((∀ k, f1 k = f2 k) → (sweep cap f1 f2).count = 2 ^ 32) ∧
    ((∀ k, f1 k ≠ f2 k) → (sweep cap f1 f2).count = 0)

/-- R140, R143: a refilter keeps, in list order, the candidates on which g1 and g3 agree, with the paired word recomputed
by g1; where the stored paired words already are g1's, it is a sub-list; the candidates of a sweep that keeps `cap` are distinct
and at most `cap`, and those of a refilter stay distinct. -/
def Obligations.RefilterKeepsAgreeingCandidates : Prop :=
  ∀ (cap : Nat) (g1 g3 : Word → Word) (l : List Survivor),
    refilter g1 g3 l =
      (l.filter fun e => decide (g1 e.cand = g3 e.cand)).map (fun e => ⟨e.cand, g1 e.cand⟩) ∧
    ((∀ e ∈ l, e.paired = g1 e.cand) →
      refilter g1 g3 l = l.filter fun e => decide (g1 e.cand = g3 e.cand)) ∧
    ((l.map Survivor.cand).Nodup → ((refilter g1 g3 l).map Survivor.cand).Nodup) ∧
    ((sweep cap g1 g3).list.map Survivor.cand).Nodup ∧
    (sweep cap g1 g3).list.length ≤ cap

/-- SEARCH1 and SEARCH2 (41_search.md section 3, R135, R137, with R139, R141, R142): the whole next state, from the words
on which the candidates of pairs 1 and 2 agree. -/
def Obligations.SearchCommitsSweep : Prop :=
  decode 0x00000010#32 = .ok .search1 ∧ decode 0x00000012#32 = .ok .search2 ∧
  ∀ s : State, s.params.Legal →
    (let hits := agreeing (cand1 s.pair1) (cand1 s.pair2)
     let kept := (hits.take s.params.survMax).map fun k => (⟨k, cand1 s.pair1 k⟩ : Survivor)
     exec .search1 s = .next { s with
       survCount := BitVec.ofNat 32 (min hits.length 0xFFFFFFFF)
       surv := kept ++ s.surv.drop kept.length
       res := if hits.length = 1 then
           { s.res with s3 := hits.headD 0#32, s1 := cand1 s.pair1 (hits.headD 0#32) } else s.res
       status :=
         { s.status with
           sphase := 1#2
           sovf := decide (s.params.survMax < hits.length)
           resolved := decide (hits.length = 1)
           errcode :=
             if hits.length = 0 then 0x4#4 else if s.params.survMax < hits.length then 0x6#4 else 0x0#4
           done := true }
       pend := none }) ∧
    (let hits := agreeing (cand2 s.pair1 s.res.s3) (cand2 s.pair2 s.res.s3)
     let kept := (hits.take s.params.survMax).map fun k => (⟨k, cand2 s.pair1 s.res.s3 k⟩ : Survivor)
     exec .search2 s = .next { s with
       survCount := BitVec.ofNat 32 (min hits.length 0xFFFFFFFF)
       surv := kept ++ s.surv.drop kept.length
       res := if hits.length = 1 then
           { s.res with s2 := hits.headD 0#32, s0 := cand2 s.pair1 s.res.s3 (hits.headD 0#32) } else s.res
       status :=
         { s.status with
           sphase := 2#2
           sovf := decide (s.params.survMax < hits.length)
           resolved := decide (hits.length = 1)
           errcode :=
             if hits.length = 0 then 0x4#4 else if s.params.survMax < hits.length then 0x6#4 else 0x0#4
           done := true }
       pend := none })

/-- FILTER1 and FILTER2 where their preconditions hold (41_search.md section 3, R136, R138, with R140 to R142): the whole
next state, from the valid survivors on which the candidates of pairs 1 and 3 agree. -/
def Obligations.FilterCommitsRefilter : Prop :=
  decode 0x00000011#32 = .ok .filter1 ∧ decode 0x00000013#32 = .ok .filter2 ∧
  (∀ s : State, s.status.sphase = 1#2 → s.status.sovf = false →
    let left := (validSurvivors s).filter fun e => decide (cand1 s.pair1 e.cand = cand1 s.pair3 e.cand)
    let kept := left.map fun e => (⟨e.cand, cand1 s.pair1 e.cand⟩ : Survivor)
    exec .filter1 s = .next { s with
      survCount := BitVec.ofNat 32 kept.length
      surv := kept ++ s.surv.drop kept.length
      res := match kept with
        | [e] => { s.res with s3 := e.cand, s1 := e.paired }
        | _ => s.res
      status :=
        { s.status with
          resolved := decide (kept.length = 1)
          errcode := if kept.length = 0 then 0x4#4 else if 1 < kept.length then 0x5#4 else 0x0#4
          done := true }
      pend := none }) ∧
  (∀ s : State, s.status.sphase = 2#2 → s.status.sovf = false →
    let left := (validSurvivors s).filter fun e =>
      decide (cand2 s.pair1 s.res.s3 e.cand = cand2 s.pair3 s.res.s3 e.cand)
    let kept := left.map fun e => (⟨e.cand, cand2 s.pair1 s.res.s3 e.cand⟩ : Survivor)
    exec .filter2 s = .next { s with
      survCount := BitVec.ofNat 32 kept.length
      surv := kept ++ s.surv.drop kept.length
      res := match kept with
        | [e] => { s.res with s2 := e.cand, s0 := e.paired }
        | _ => s.res
      status :=
        { s.status with
          resolved := decide (kept.length = 1)
          errcode := if kept.length = 0 then 0x4#4 else if 1 < kept.length then 0x5#4 else 0x0#4
          done := true }
      pend := none })

/-- R144: a SEARCH with more survivors than SURV_MAX sets SOVF and raises E_SOVF after the commit, keeps the SURV_MAX
smallest candidates with their paired words, leaves RESOLVED 0 and the RES registers; FILTER then refuses the buffer. -/
def Obligations.OverflowKeepsSmallest : Prop :=
  ∀ s : State, s.params.Legal →
    (let hits := agreeing (cand1 s.pair1) (cand1 s.pair2)
     s.params.survMax < hits.length → ∃ t u : State, exec .search1 s = .next t ∧
       t.status.sovf = true ∧ t.status.errcode = 0x6#4 ∧
       t.survCount = BitVec.ofNat 32 (min hits.length 0xFFFFFFFF) ∧
       validSurvivors t = (hits.take s.params.survMax).map (fun k => ⟨k, cand1 s.pair1 k⟩) ∧
       t.status.resolved = false ∧ t.res = s.res ∧ exec .filter1 t = .next u ∧ u.status.errcode = 0x6#4) ∧
    (let hits := agreeing (cand2 s.pair1 s.res.s3) (cand2 s.pair2 s.res.s3)
     s.params.survMax < hits.length → ∃ t u : State, exec .search2 s = .next t ∧
       t.status.sovf = true ∧ t.status.errcode = 0x6#4 ∧
       t.survCount = BitVec.ofNat 32 (min hits.length 0xFFFFFFFF) ∧
       validSurvivors t = (hits.take s.params.survMax).map (fun k => ⟨k, cand2 s.pair1 s.res.s3 k⟩) ∧
       t.status.resolved = false ∧ t.res = s.res ∧ exec .filter2 t = .next u ∧ u.status.errcode = 0x6#4)

/-- R145: the preconditions of FILTERp in their order; either raise changes nothing else; with SPHASE = p and
SURV_COUNT = 0 the checks pass and it ends E_INCONCLUSIVE with 0 survivors. -/
def Obligations.FilterPreconditionsInOrder : Prop :=
  ∀ (s : State) (i : Instr) (p : BitVec 2), (i, p) ∈ [(Instr.filter1, 1#2), (Instr.filter2, 2#2)] →
    (s.status.sphase ≠ p → exec i s =
      .next { s with status := { s.status with errcode := 0x7#4, done := true }, pend := none }) ∧
    (s.status.sphase = p → s.status.sovf = true → exec i s =
      .next { s with status := { s.status with errcode := 0x6#4, done := true }, pend := none }) ∧
    (s.status.sphase = p → s.status.sovf = false → s.survCount = 0#32 →
      ∃ t : State, exec i s = .next t ∧ t.status.errcode = 0x4#4 ∧ t.survCount = 0#32)

/-- R142: among commands, only a SEARCH or FILTER that leaves exactly one survivor writes the RES registers of its phase,
with that survivor, and such a one always does; every other command leaves all four. -/
def Obligations.ResultsWrittenOnlyWhenUnique : Prop :=
  (∀ (i : Instr) (s t : State), s.params.Legal → exec i s = .next t → t.res ≠ s.res →
    t.status.resolved = true ∧ ∃ e, validSurvivors t = [e] ∧
      ((i ∈ [Instr.search1, .filter1] ∧ t.res = { s.res with s3 := e.cand, s1 := e.paired }) ∨
       (i ∈ [Instr.search2, .filter2] ∧ t.res = { s.res with s2 := e.cand, s0 := e.paired }))) ∧
  (∀ (i : Instr) (s t : State), s.params.Legal → exec i s = .next t →
    i ∈ [Instr.search1, .filter1, .search2, .filter2] → t.status.errcode = 0x0#4 → t.survCount = 1#32 →
    ∃ e, validSurvivors t = [e] ∧
      (i ∈ [Instr.search1, .filter1] → t.res.s3 = e.cand ∧ t.res.s1 = e.paired) ∧
      (i ∈ [Instr.search2, .filter2] → t.res.s2 = e.cand ∧ t.res.s0 = e.paired))

/-- The corner case of 41_search.md R135 and vector S-5: pair 1 equal to pair 2 makes every word survive (SURV_COUNT
saturates, SOVF, E_SOVF, the buffer holds the words 0 .. SURV_MAX-1); SEARCH2 likewise. -/
def Obligations.EqualPairsOverflow : Prop :=
  ∀ s : State, s.params.Legal → s.pair1 = s.pair2 →
    (∃ t : State, exec .search1 s = .next t ∧ t.survCount = 0xFFFFFFFF#32 ∧ t.status.sovf = true ∧
      t.status.errcode = 0x6#4 ∧ t.status.sphase = 1#2 ∧ t.res = s.res ∧
      validSurvivors t = (List.range s.params.survMax).map
        fun n => ⟨BitVec.ofNat 32 n, cand1 s.pair1 (BitVec.ofNat 32 n)⟩) ∧
    (∃ t : State, exec .search2 s = .next t ∧ t.survCount = 0xFFFFFFFF#32 ∧ t.status.sovf = true ∧
      t.status.errcode = 0x6#4 ∧ t.status.sphase = 2#2 ∧ t.res = s.res ∧
      validSurvivors t = (List.range s.params.survMax).map
        fun n => ⟨BitVec.ofNat 32 n, cand2 s.pair1 s.res.s3 (BitVec.ofNat 32 n)⟩)

/-- R146: the search commands read no subkey RAM, no R_ACT, no KEY register, no ROUNDS and no KEYED bit, and work keyed or
not: with all of these changed, they do the same. -/
def Obligations.SearchIgnoresKeying : Prop :=
  ∀ (i : Instr) (s t : State) (key : Key) (rounds : Word) (ram : List Word) (rAct : Nat) (keyed : Bool),
    i ∈ [Instr.search1, .filter1, .search2, .filter2] → exec i s = .next t →
    exec i { s with
        key := key, rounds := rounds, subkeyRam := ram, rAct := rAct, status := { s.status with keyed := keyed } } =
      .next { t with
        key := key, rounds := rounds, subkeyRam := ram, rAct := rAct, status := { t.status with keyed := keyed } }

/-- R176: a SEARCH whose sweep found no survivor and a FILTER that left none end E_INCONCLUSIVE with SURV_COUNT 0 and the
RES registers as they were; a filter with any further pair 3 then ends so again. -/
def Obligations.InconclusiveLeavesResults : Prop :=
  (∀ (s : State) (q : Pair), s.params.Legal → agreeing (cand1 s.pair1) (cand1 s.pair2) = [] →
    ∃ t u : State, exec .search1 s = .next t ∧ t.status.errcode = 0x4#4 ∧ t.survCount = 0#32 ∧
      t.status.resolved = false ∧ t.res = s.res ∧
      exec .filter1 { t with pair3 := q } = .next u ∧ u.status.errcode = 0x4#4) ∧
  (∀ (s : State) (q : Pair), s.params.Legal → agreeing (cand2 s.pair1 s.res.s3) (cand2 s.pair2 s.res.s3) = [] →
    ∃ t u : State, exec .search2 s = .next t ∧ t.status.errcode = 0x4#4 ∧ t.survCount = 0#32 ∧
      t.status.resolved = false ∧ t.res = s.res ∧
      exec .filter2 { t with pair3 := q } = .next u ∧ u.status.errcode = 0x4#4) ∧
  (∀ s : State, s.status.sphase = 1#2 → s.status.sovf = false →
    (∀ e ∈ validSurvivors s, cand1 s.pair1 e.cand ≠ cand1 s.pair3 e.cand) →
    ∃ t : State, exec .filter1 s = .next t ∧ t.status.errcode = 0x4#4 ∧ t.survCount = 0#32 ∧
      t.status.resolved = false ∧ t.res = s.res) ∧
  (∀ s : State, s.status.sphase = 2#2 → s.status.sovf = false →
    (∀ e ∈ validSurvivors s, cand2 s.pair1 s.res.s3 e.cand ≠ cand2 s.pair3 s.res.s3 e.cand) →
    ∃ t : State, exec .filter2 s = .next t ∧ t.status.errcode = 0x4#4 ∧ t.survCount = 0#32 ∧
      t.status.resolved = false ∧ t.res = s.res)

/-- R177: a FILTER that leaves two or more survivors ends E_AMBIGUOUS; they stay in the buffer, SURV_COUNT of them, for the
host to read; no RES register is written; a further FILTER of the phase is allowed (its preconditions hold). -/
def Obligations.AmbiguousKeepsSurvivors : Prop :=
  (∀ s : State, s.status.sphase = 1#2 → s.status.sovf = false →
    let left := (validSurvivors s).filter fun e => decide (cand1 s.pair1 e.cand = cand1 s.pair3 e.cand)
    2 ≤ left.length → ∃ t : State, exec .filter1 s = .next t ∧ t.status.errcode = 0x5#4 ∧
      validSurvivors t = left.map (fun e => ⟨e.cand, cand1 s.pair1 e.cand⟩) ∧
      t.survCount.toNat = left.length ∧ t.res = s.res ∧ t.status.resolved = false ∧
      t.status.sphase = 1#2 ∧ t.status.sovf = false) ∧
  (∀ s : State, s.status.sphase = 2#2 → s.status.sovf = false →
    let left := (validSurvivors s).filter fun e =>
      decide (cand2 s.pair1 s.res.s3 e.cand = cand2 s.pair3 s.res.s3 e.cand)
    2 ≤ left.length → ∃ t : State, exec .filter2 s = .next t ∧ t.status.errcode = 0x5#4 ∧
      validSurvivors t = left.map (fun e => ⟨e.cand, cand2 s.pair1 s.res.s3 e.cand⟩) ∧
      t.survCount.toNat = left.length ∧ t.res = s.res ∧ t.status.resolved = false ∧
      t.status.sphase = 2#2 ∧ t.status.sovf = false)

/-! ## The register window -/

/-- The register map (10_state.md R23, 20_memory.md R61): a register's offset names that register and no other, but for the
survivor slots from SURV_MAX on and the subkey slots from T_MAX on, which are reserved. -/
def Obligations.RegisterMapRoundTrip : Prop :=
  (∀ (c : Params) (r : Reg), c.Legal → r.wf = true → (∀ n, r = .survCand n ∨ r = .survPaired n → n < c.survMax) →
    (∀ m, r = .subkey m → m < c.tMax) → regAt c (regOffset r) = some r) ∧
  (∀ (c : Params) (addr : Nat) (r : Reg), c.Legal → regAt c addr = some r →
    regOffset r = addr ∧ r.wf = true ∧ addr % 4 = 0 ∧ addr < 0x1000)

/-- R70: a host write of one aligned word of the window. While BUSY it is dropped, whatever the offset, and OVERRUN is set.
While idle: CMD accepts the command (R84; its latency is the model's choice, log 6), STATUS is W1C of DONE and OVERRUN,
INT_EN takes bit 0, a RW register takes v at once and nothing else changes, any other offset changes nothing. -/
def Obligations.HostWriteRules : Prop :=
  ∀ (s : State) (addr : Nat) (v : Word), HostNext s (.write addr 4 v) → addr % 4 = 0 → addr < 0x1000 →
    (s.pend ≠ none →
      step s = .next { passTurn s with status := { s.status with overrun := true } }) ∧
    (s.pend = none → addr = 0x008 → ∃ e : Env,
      step s = .next { s with
        status := { s.status with done := false, errcode := 0x0#4 }, pend := some v, env := e } ∧
      e.hostOps = s.env.hostOps.tail) ∧
    (s.pend = none → addr = 0x00C →
      step s = .next { passTurn s with
        status :=
          { s.status with
            done := if v.getLsbD 1 = true then false else s.status.done
            overrun := if v.getLsbD 6 = true then false else s.status.overrun } }) ∧
    (s.pend = none → addr = 0x010 → step s = .next { passTurn s with doneIe := v.getLsbD 0 }) ∧
    (∀ r ∈ rwRegs, s.pend = none → addr = regOffset r → ∃ t : State, step s = .next t ∧
      regValue r t = v ∧ (∀ r' : Reg, r' ≠ r → regValue r' t = regValue r' s) ∧
      t.subkeyRam = s.subkeyRam ∧ t.surv = s.surv ∧ t.rAct = s.rAct ∧ t.pend = s.pend ∧
      t.status = s.status ∧ t.env = (passTurn s).env) ∧
    (s.pend = none → addr ∉ [0x008, 0x00C, 0x010] → addr ∉ rwRegs.map regOffset →
      step s = .next (passTurn s))

/-- A host read of one aligned word of the window (20_memory.md R68, R69, R71) changes nothing of the block; it returns the
register's value (idle, or not VOLATILE), 0 at a reserved offset, and some word (a free value, log 5) at a VOLATILE offset
while busy. That the survivor slots from SURV_MAX on and the subkey slots from T_MAX on are reserved and read 0 while busy
too, where R69 lists every n and m as VOLATILE, is the model's choice (log 15). -/
def Obligations.HostReadRules : Prop :=
  ∀ (s : State) (addr : Nat), HostNext s (.read addr 4) → addr % 4 = 0 → addr < 0x1000 →
    ∃ t : State, step s = .next t ∧ SameBlock s t ∧ t.env.hostOps = s.env.hostOps.tail ∧
      (∃ v, t.env.lastRead = some v) ∧
      (regAt s.params addr = none → t.env.lastRead = some 0#32) ∧
      (∀ r, regAt s.params addr = some r →
        s.pend = none ∨ r ∉ [Reg.doutA, .doutB, .survCount, .resS0, .resS1, .resS2, .resS3] ∧
          (∀ n, r ≠ .survCand n ∧ r ≠ .survPaired n ∧ r ≠ .subkey n) →
        t.env.lastRead = some (regValue r s))

/-- Reserved offsets (20_memory.md R71, 10_state.md R51) read 0 at all times and, like read-only registers, ignore writes
while idle; the reserved bits of STATUS and INT_EN read 0 and ignore writes. That the survivor slots from SURV_MAX on and the
subkey slots from T_MAX on read 0 while busy too, where R69 lists every n and m as VOLATILE, is the model's choice (log 15). -/
def Obligations.ReservedReadZeroIgnoreWrites : Prop :=
  (∀ (s : State) (addr : Nat), s.params.Legal → addr % 4 = 0 → reservedOffset s.params addr →
    busReadValue addr s = 0#32 ∧ ∀ v, s.pend = none → busWrite addr v s = s) ∧
  (∀ (s : State) (r : Reg) (v : Word), s.params.Legal → s.pend = none →
    (r ∈ [Reg.id, .params, .survCount, .doutA, .doutB] ∨
      ∃ n, r = .survCand n ∧ n < s.params.survMax ∨ r = .survPaired n ∧ n < s.params.survMax ∨
        r = .subkey n ∧ n < s.params.tMax) →
    busWrite (regOffset r) v s = s) ∧
  (∀ s : State, (regValue .status s).extractLsb' 14 18 = 0#18 ∧ (regValue .intEn s).extractLsb' 1 31 = 0#31) ∧
  (∀ (s : State) (v w : Word), s.pend = none →
    (v.getLsbD 0 = w.getLsbD 0 → busWrite 0x010 v s = busWrite 0x010 w s) ∧
    (v.getLsbD 1 = w.getLsbD 1 → v.getLsbD 6 = w.getLsbD 6 → busWrite 0x00C v s = busWrite 0x00C w s))

/-- The layout of STATUS as a host reads it (10_state.md R27), with R30 (ERR reads 1 exactly when ERRCODE ≠ 0), R48 (BUSY = 1
exactly when PEND ≠ none, and PEND is none at reset) and R49 (IRQ reads DONE and DONE_IE). -/
def Obligations.StatusWordLayout : Prop :=
  State.reset.pend = none ∧
  ∀ s : State,
    (regValue .status s).getLsbD 0 = decide (s.pend ≠ none) ∧
    (regValue .status s).getLsbD 1 = s.status.done ∧
    (regValue .status s).getLsbD 2 = decide (s.status.errcode ≠ 0x0#4) ∧
    (regValue .status s).getLsbD 3 = s.status.keyed ∧
    (regValue .status s).getLsbD 4 = s.status.resolved ∧
    (regValue .status s).getLsbD 5 = s.status.sovf ∧
    (regValue .status s).getLsbD 6 = s.status.overrun ∧
    (regValue .status s).getLsbD 7 = irq s ∧ irq s = (s.status.done && s.doneIe) ∧
    (regValue .status s).extractLsb' 8 4 = s.status.errcode ∧
    (regValue .status s).extractLsb' 12 2 = s.status.sphase ∧
    (regValue .status s).extractLsb' 14 18 = 0#18

/-- R184, R49: the interrupt is DONE and DONE_IE; every completion raises it if enabled, errors included; it drops by a W1C
write of DONE, by disabling DONE_IE, by accepting the next command, and by reset. -/
def Obligations.InterruptFollowsDone : Prop :=
  (∀ s : State, irq s = (s.status.done && s.doneIe) ∧ (regValue .status s).getLsbD 7 = irq s) ∧
  (∀ (s : State) (w : Word), EngineNext s w → ∃ t : State, step s = .next t ∧ irq t = s.doneIe) ∧
  (∀ (s : State) (v : Word), s.pend = none → v.getLsbD 1 = true → irq (busWrite 0x00C v s) = false) ∧
  (∀ (s : State) (v : Word), s.pend = none → v.getLsbD 0 = false → irq (busWrite 0x010 v s) = false) ∧
  (∀ (s : State) (v : Word), s.pend = none → irq (busWrite 0x008 v s) = false) ∧
  (∀ s : State, irq (resetBlock s) = false)

/-- R63: a misaligned or narrow host access of the window faults the host by name. -/
def Obligations.UnsupportedAccessFaultsHost : Prop :=
  ∀ (s : State) (addr n : Nat) (v : Word), addr < 0x1000 → addr % 4 ≠ 0 ∨ n ≠ 4 →
    (HostNext s (.read addr n) → step s = .fault (.unsupportedAccess addr n)) ∧
    (HostNext s (.write addr n v) → step s = .fault (.unsupportedAccess addr n))

/-- R24, R25: ID and PARAMS read their constants at all times, and writes of them are ignored; with the default parameters
PARAMS reads 0x001000FF. -/
def Obligations.IdentificationIsConstant : Prop :=
  ∀ s : State, s.params.Legal →
    busReadValue 0x000 s = 0x52433501#32 ∧
    (busReadValue 0x004 s).extractLsb' 0 16 = BitVec.ofNat 16 s.params.rMax ∧
    (busReadValue 0x004 s).extractLsb' 16 16 = BitVec.ofNat 16 s.params.survMax ∧
    (s.params = Config.defaults → busReadValue 0x004 s = 0x001000FF#32) ∧
    (∀ v, s.pend = none → busWrite 0x000 v s = s ∧ busWrite 0x004 v s = s) ∧
    (∀ v, busReadValue 0x000 (busWrite 0x000 v s) = 0x52433501#32 ∧
      busReadValue 0x004 (busWrite 0x004 v s) = busReadValue 0x004 s)

/-- The masked windows as a host reads them while idle (10_state.md R45, R46): a survivor entry when n < min(SURV_COUNT,
SURV_MAX), a subkey when KEYED = 1 and m < T_ACT, 0 otherwise. Its premises on the parameters and on R_ACT (R47) are parts of
the invariant that StepKeepsInvariant states. -/
def Obligations.MaskedWindowReads : Prop :=
  ∀ s : State, s.params.Legal → s.rAct ≤ s.params.rMax → s.pend = none →
    (∀ n, n < survSlots →
      busReadValue (0x200 + 8 * n) s =
        (if n < min s.survCount.toNat s.params.survMax then (survEntry s n).cand else 0#32) ∧
      busReadValue (0x204 + 8 * n) s =
        (if n < min s.survCount.toNat s.params.survMax then (survEntry s n).paired else 0#32)) ∧
    (∀ m, m < subkeySlots → busReadValue (0x800 + 4 * m) s =
      if s.status.keyed = true ∧ m < 2 * (s.rAct + 1) then subkeyWord s m else 0#32)

/-- R34: OVERRUN is set by a host write dropped while BUSY; it stays 1 until the host writes 1 to bit 6 of STATUS while
idle, or CLEAR completes, or reset; command acceptance does not clear it. -/
def Obligations.OverrunIsSticky : Prop :=
  (∀ (s : State) (addr : Nat) (v : Word), s.pend ≠ none → (busWrite addr v s).status.overrun = true) ∧
  (∀ s t : State, step s = .next t → s.status.overrun = true → t.status.overrun = false →
    (s.pend = none ∧ ∃ v, HostNext s (.write 0x00C 4 v) ∧ v.getLsbD 6 = true) ∨
    EngineNext s (encode .clear) ∨ HostNext s .reset) ∧
  (∀ (s : State) (v : Word), (accept v s).status.overrun = s.status.overrun)

/-- R31: KEYED is 0 after reset, is set by a KEYSET that completes without error, and nothing clears it but reset; it gates
ENCRYPT, DECRYPT and the SUBKEY window. -/
def Obligations.KeyedSetByKeysetClearedByReset : Prop :=
  State.reset.status.keyed = false ∧
  (∀ s t : State, step s = .next t → t.status.keyed ≠ s.status.keyed →
    (t.status.keyed = true ∧ EngineNext s (encode .keyset) ∧ t.status.errcode = 0x0#4) ∨
    (t.status.keyed = false ∧ HostNext s .reset)) ∧
  (∀ s t : State, EngineNext s (encode .keyset) → step s = .next t → t.status.errcode = 0x0#4 →
    t.status.keyed = true) ∧
  (∀ s : State, s.status.keyed = false →
    (∀ m, regValue (.subkey m) s = 0#32) ∧
    ∀ i ∈ [Instr.encrypt, Instr.decrypt], ∃ t : State, exec i s = .next t ∧ t.status.errcode = 0x2#4 ∧
      t.dout = s.dout)

/-- Who writes what, over every step (10_state.md R40 to R46, 20_memory.md R70, R77): the subkey RAM only KEYSET, DOUT only
ENCRYPT and DECRYPT, the survivor buffer only SEARCH and FILTER, the operand registers only a host write while idle; and
reset all of them. -/
def Obligations.WritersOfState : Prop :=
  ∀ s t : State, step s = .next t → ¬ HostNext s .reset →
    (t.subkeyRam ≠ s.subkeyRam ∨ t.rAct ≠ s.rAct → EngineNext s (encode .keyset)) ∧
    (t.dout ≠ s.dout → EngineNext s (encode .encrypt) ∨ EngineNext s (encode .decrypt)) ∧
    (t.surv ≠ s.surv → ∃ i ∈ [Instr.search1, .filter1, .search2, .filter2], EngineNext s (encode i)) ∧
    (t.survCount ≠ s.survCount →
      ∃ i ∈ [Instr.search1, .filter1, .search2, .filter2, .clear], EngineNext s (encode i)) ∧
    (t.key ≠ s.key ∨ t.rounds ≠ s.rounds ∨ t.din ≠ s.din ∨ t.pair1 ≠ s.pair1 ∨ t.pair2 ≠ s.pair2 ∨
      t.pair3 ≠ s.pair3 ∨ t.doneIe ≠ s.doneIe →
      s.pend = none ∧ ∃ addr v, HostNext s (.write addr 4 v))

/-- The host assembler's statements (30_encoding.md R88, R89) expand to bus operations the block supports, and what WAIT and
the checked reads do: WAIT reads STATUS and is done again while BUSY is 1; a checked read goes on if the masked value is the
one wanted, else the program fails (log 12). -/
def Obligations.HostStatementsRun : Prop :=
  (∀ st : HostStmt, st.wf = true → ∀ op ∈ expandStmt st, op.wf = true) ∧
  (∀ s : State, HostNext s .waitIdle → ∃ t : State, step s = .next t ∧ SameBlock s t ∧
    t.env.lastRead = some (regValue .status s) ∧
    t.env.hostOps = if s.pend = none then s.env.hostOps.tail else s.env.hostOps) ∧
  (∀ (s : State) (r : Reg) (mask want : Word), HostNext s (.check (regOffset r) mask want) → s.pend = none →
    r.wf = true → regAt s.params (regOffset r) = some r →
    (regValue r s &&& mask = want → ∃ t : State, step s = .next t ∧ SameBlock s t ∧
      t.env.hostOps = s.env.hostOps.tail) ∧
    (regValue r s &&& mask ≠ want →
      step s = .fault (.hostCheckFailed (regOffset r) (regValue r s) want)))

/-! ## Reset, progress and invariants -/

/-- R200, R201: asserting reset, idle or busy, in one step puts every register at its reset value, PEND to none (the pending
command never completes), and every SUBKEY and survivor read at 0; and nothing but a completion or reset takes a pending
command away. -/
def Obligations.ResetInputRestoresReset : Prop :=
  (∀ s t : State, step s = .next t → s.pend ≠ none → t.pend ≠ s.pend →
    (∃ w, EngineNext s w) ∨ HostNext s .reset) ∧
  ∀ s : State, HostNext s .reset → ∃ t : State, step s = .next t ∧
    t = { State.resetWith s.params with surv := t.surv, subkeyRam := t.subkeyRam, env := t.env } ∧
    t.pend = none ∧ t.status.done = false ∧ regValue .status t = 0#32 ∧ irq t = false ∧
    (∀ r, regValue r t = regValue r (State.resetWith s.params)) ∧
    (∀ n, regValue (.survCand n) t = 0#32 ∧ regValue (.survPaired n) t = 0#32 ∧ regValue (.subkey n) t = 0#32)

/-- Right after reset (70_reset_and_hazards.md R202, R203; 10_state.md R23, R24, R25, R50), for every legal choice of the
parameters: every register but ID and PARAMS reads 0, those two their constants, the block is idle, not keyed, has no
survivors and its interrupt disabled, and accepts a CMD write; a KEYSET then expands the all-zero key for 0 rounds, and after
ROUNDS is written 1 for one round. The fixed name State.reset is the block with the defaults of 00_scope.md R6, so its PARAMS
reads 0x001000FF: that it takes the defaults is the model's choice (log 1). -/
def Obligations.ResetStateAndFirstKeyset : Prop :=
  State.reset = State.resetWith Config.defaults ∧ regValue .params State.reset = 0x001000FF#32 ∧
  ∀ c : Params, c.Legal →
    (∀ r : Reg, r ≠ .id → r ≠ .params → regValue r (State.resetWith c) = 0#32) ∧
    regValue .id (State.resetWith c) = 0x52433501#32 ∧
    regValue .params (State.resetWith c) = BitVec.ofNat 32 (c.rMax + 2 ^ 16 * c.survMax) ∧
    busyBit (State.resetWith c) = false ∧ (State.resetWith c).status.keyed = false ∧
    (State.resetWith c).status.sphase = 0#2 ∧ (State.resetWith c).survCount = 0#32 ∧
    (State.resetWith c).doneIe = false ∧ (State.resetWith c).rAct = 0 ∧
    (∀ v, (busWrite 0x008 v (State.resetWith c)).pend = some v) ∧
    (∃ t : State, exec .keyset (State.resetWith c) = .next t ∧ t.rAct = 0 ∧ t.status.keyed = true ∧
      t.status.errcode = 0x0#4 ∧
      t.subkeyRam.take 2 = keySchedule c.pMagic c.qMagic ⟨0#32, 0#32, 0#32, 0#32⟩ 0) ∧
    (∃ t : State, exec .keyset (busWrite 0x014 1#32 (State.resetWith c)) = .next t ∧ t.rAct = 1 ∧
      t.status.keyed = true ∧ t.status.errcode = 0x0#4 ∧
      t.subkeyRam.take 4 = keySchedule c.pMagic c.qMagic ⟨0#32, 0#32, 0#32, 0#32⟩ 1)

/-- The parameters are the block's configuration (00_scope.md R6, R18): no step changes them, whether it is
a command, a host access or a reset, and so no run does; the defaults, which State.reset takes, are legal. -/
def Obligations.ParametersNeverChange : Prop :=
  Config.defaults.Legal ∧ State.reset.params = Config.defaults ∧
  (∀ s t : State, step s = .next t → t.params = s.params) ∧
  (∀ (k : Nat) (s t : State), core.run k s = .next t → t.params = s.params)

/-- R216 (with 20_memory.md R70, R77): a pending command completes after its latency, unless reset or a fault of the host
intervenes. For every latency and every host access made in between: all of them are answered, writes are dropped, and the
command is performed on the register values it was accepted with; only OVERRUN and the model's own fields may have changed.
That a latency counts host turns is the model's choice (log 6). -/
def Obligations.PendingCommandCompletes : Prop :=
  ∀ (s : State) (w : Word), s.pend = some w →
    (∀ op ∈ s.env.hostOps.take s.env.wait,
      op.wf = true ∧ op ≠ .reset ∧ ∀ addr mask want, op ≠ .check addr mask want) →
    ∃ u t : State, core.run s.env.wait s = .next u ∧ EngineNext u w ∧
      { u with env := s.env, status := { u.status with overrun := s.status.overrun } } = s ∧
      core.run (s.env.wait + 1) s = .next t ∧ perform w u = .next t ∧ t.pend = none ∧ t.status.done = true

/-- The state right after reset meets the invariant (10_state.md R50), with every legal choice of the parameters. -/
def Obligations.ResetMeetsInvariant : Prop :=
  BlockInv State.reset ∧ ∀ c : Params, c.Legal → BlockInv (State.resetWith c)

/-- Every step keeps the invariant, from every state that has it (10_state.md R29, R31 to R36, R39, R45 to R47; 41_search.md
R148): legal parameters, storage sizes, R_ACT in range, only the produced codes and phases, SOVF and RESOLVED exact,
survivors ascending, and a valid expansion behind KEYED. -/
def Obligations.StepKeepsInvariant : Prop :=
  ∀ s t : State, BlockInv s → step s = .next t → BlockInv t

/-- Masked storage is unobservable (10_state.md R45, R46, R50; 40_cipher.md R114): two states that differ only in invalid
survivor entries and in subkey words not of the current keying take the same step, to two states that again differ only
there; every read the host makes returns the same. -/
def Obligations.MaskedStorageUnobservable : Prop :=
  ∀ s t : State, SameView s t →
    (∀ s' : State, step s = .next s' → ∃ t' : State, step t = .next t' ∧ SameView s' t') ∧
    (∀ f : Fault, step s = .fault f → step t = .fault f)
end

