-- ==== Sys2Proof/Laws/State.lean ====
section
/-! SUPPORT. One lemma per field per update of the state, each true by unfolding the update once, so that no later
proof unfolds a record update. -/

namespace Sys2Proof.Machine

/-! ### The state right after reset -/

@[simp] theorem resetWith_params (c : Params) : (State.resetWith c).params = c := rfl
@[simp] theorem reset_params : State.reset.params = Config.defaults := rfl

/-! ### finish -/

@[simp] theorem finish_status (code : BitVec 4) (s : State) :
    (finish code s).status = { s.status with errcode := code, done := true } := rfl
@[simp] theorem finish_params (code : BitVec 4) (s : State) : (finish code s).params = s.params := rfl
@[simp] theorem finish_doneIe (code : BitVec 4) (s : State) : (finish code s).doneIe = s.doneIe := rfl
@[simp] theorem finish_rounds (code : BitVec 4) (s : State) : (finish code s).rounds = s.rounds := rfl
@[simp] theorem finish_survCount (code : BitVec 4) (s : State) : (finish code s).survCount = s.survCount := rfl
@[simp] theorem finish_key (code : BitVec 4) (s : State) : (finish code s).key = s.key := rfl
@[simp] theorem finish_din (code : BitVec 4) (s : State) : (finish code s).din = s.din := rfl
@[simp] theorem finish_dout (code : BitVec 4) (s : State) : (finish code s).dout = s.dout := rfl
@[simp] theorem finish_pair1 (code : BitVec 4) (s : State) : (finish code s).pair1 = s.pair1 := rfl
@[simp] theorem finish_pair2 (code : BitVec 4) (s : State) : (finish code s).pair2 = s.pair2 := rfl
@[simp] theorem finish_pair3 (code : BitVec 4) (s : State) : (finish code s).pair3 = s.pair3 := rfl
@[simp] theorem finish_res (code : BitVec 4) (s : State) : (finish code s).res = s.res := rfl
@[simp] theorem finish_surv (code : BitVec 4) (s : State) : (finish code s).surv = s.surv := rfl
@[simp] theorem finish_subkeyRam (code : BitVec 4) (s : State) : (finish code s).subkeyRam = s.subkeyRam := rfl
@[simp] theorem finish_rAct (code : BitVec 4) (s : State) : (finish code s).rAct = s.rAct := rfl
@[simp] theorem finish_pend (code : BitVec 4) (s : State) : (finish code s).pend = none := rfl
@[simp] theorem finish_env (code : BitVec 4) (s : State) : (finish code s).env = s.env := rfl

/-! ### countDraw -/

@[simp] theorem countDraw_status (s : State) : (countDraw s).status = s.status := rfl
@[simp] theorem countDraw_params (s : State) : (countDraw s).params = s.params := rfl
@[simp] theorem countDraw_doneIe (s : State) : (countDraw s).doneIe = s.doneIe := rfl
@[simp] theorem countDraw_rounds (s : State) : (countDraw s).rounds = s.rounds := rfl
@[simp] theorem countDraw_survCount (s : State) : (countDraw s).survCount = s.survCount := rfl
@[simp] theorem countDraw_key (s : State) : (countDraw s).key = s.key := rfl
@[simp] theorem countDraw_din (s : State) : (countDraw s).din = s.din := rfl
@[simp] theorem countDraw_dout (s : State) : (countDraw s).dout = s.dout := rfl
@[simp] theorem countDraw_pair1 (s : State) : (countDraw s).pair1 = s.pair1 := rfl
@[simp] theorem countDraw_pair2 (s : State) : (countDraw s).pair2 = s.pair2 := rfl
@[simp] theorem countDraw_pair3 (s : State) : (countDraw s).pair3 = s.pair3 := rfl
@[simp] theorem countDraw_res (s : State) : (countDraw s).res = s.res := rfl
@[simp] theorem countDraw_surv (s : State) : (countDraw s).surv = s.surv := rfl
@[simp] theorem countDraw_subkeyRam (s : State) : (countDraw s).subkeyRam = s.subkeyRam := rfl
@[simp] theorem countDraw_rAct (s : State) : (countDraw s).rAct = s.rAct := rfl
@[simp] theorem countDraw_pend (s : State) : (countDraw s).pend = s.pend := rfl
@[simp] theorem countDraw_env (s : State) : (countDraw s).env = { s.env with draws := s.env.draws + 1 } := rfl

/-! ### accept -/

@[simp] theorem accept_status (v : Word) (s : State) :
    (accept v s).status = { s.status with done := false, errcode := 0x0#4 } := rfl
@[simp] theorem accept_params (v : Word) (s : State) : (accept v s).params = s.params := rfl
@[simp] theorem accept_doneIe (v : Word) (s : State) : (accept v s).doneIe = s.doneIe := rfl
@[simp] theorem accept_rounds (v : Word) (s : State) : (accept v s).rounds = s.rounds := rfl
@[simp] theorem accept_survCount (v : Word) (s : State) : (accept v s).survCount = s.survCount := rfl
@[simp] theorem accept_key (v : Word) (s : State) : (accept v s).key = s.key := rfl
@[simp] theorem accept_din (v : Word) (s : State) : (accept v s).din = s.din := rfl
@[simp] theorem accept_dout (v : Word) (s : State) : (accept v s).dout = s.dout := rfl
@[simp] theorem accept_pair1 (v : Word) (s : State) : (accept v s).pair1 = s.pair1 := rfl
@[simp] theorem accept_pair2 (v : Word) (s : State) : (accept v s).pair2 = s.pair2 := rfl
@[simp] theorem accept_pair3 (v : Word) (s : State) : (accept v s).pair3 = s.pair3 := rfl
@[simp] theorem accept_res (v : Word) (s : State) : (accept v s).res = s.res := rfl
@[simp] theorem accept_surv (v : Word) (s : State) : (accept v s).surv = s.surv := rfl
@[simp] theorem accept_subkeyRam (v : Word) (s : State) : (accept v s).subkeyRam = s.subkeyRam := rfl
@[simp] theorem accept_rAct (v : Word) (s : State) : (accept v s).rAct = s.rAct := rfl
@[simp] theorem accept_pend (v : Word) (s : State) : (accept v s).pend = some v := rfl
@[simp] theorem accept_env (v : Word) (s : State) :
    (accept v s).env = { s.env with wait := nextLatency s, latencies := s.env.latencies.tail, draws := s.env.draws + 1 } := rfl

/-! ### writeStatus -/

@[simp] theorem writeStatus_status (v : Word) (s : State) :
    (writeStatus v s).status = { s.status with done := s.status.done && !v.getLsbD 1, overrun := s.status.overrun && !v.getLsbD 6 } := rfl
@[simp] theorem writeStatus_params (v : Word) (s : State) : (writeStatus v s).params = s.params := rfl
@[simp] theorem writeStatus_doneIe (v : Word) (s : State) : (writeStatus v s).doneIe = s.doneIe := rfl
@[simp] theorem writeStatus_rounds (v : Word) (s : State) : (writeStatus v s).rounds = s.rounds := rfl
@[simp] theorem writeStatus_survCount (v : Word) (s : State) : (writeStatus v s).survCount = s.survCount := rfl
@[simp] theorem writeStatus_key (v : Word) (s : State) : (writeStatus v s).key = s.key := rfl
@[simp] theorem writeStatus_din (v : Word) (s : State) : (writeStatus v s).din = s.din := rfl
@[simp] theorem writeStatus_dout (v : Word) (s : State) : (writeStatus v s).dout = s.dout := rfl
@[simp] theorem writeStatus_pair1 (v : Word) (s : State) : (writeStatus v s).pair1 = s.pair1 := rfl
@[simp] theorem writeStatus_pair2 (v : Word) (s : State) : (writeStatus v s).pair2 = s.pair2 := rfl
@[simp] theorem writeStatus_pair3 (v : Word) (s : State) : (writeStatus v s).pair3 = s.pair3 := rfl
@[simp] theorem writeStatus_res (v : Word) (s : State) : (writeStatus v s).res = s.res := rfl
@[simp] theorem writeStatus_surv (v : Word) (s : State) : (writeStatus v s).surv = s.surv := rfl
@[simp] theorem writeStatus_subkeyRam (v : Word) (s : State) : (writeStatus v s).subkeyRam = s.subkeyRam := rfl
@[simp] theorem writeStatus_rAct (v : Word) (s : State) : (writeStatus v s).rAct = s.rAct := rfl
@[simp] theorem writeStatus_pend (v : Word) (s : State) : (writeStatus v s).pend = s.pend := rfl
@[simp] theorem writeStatus_env (v : Word) (s : State) : (writeStatus v s).env = s.env := rfl

/-! ### writeIntEn -/

@[simp] theorem writeIntEn_status (v : Word) (s : State) : (writeIntEn v s).status = s.status := rfl
@[simp] theorem writeIntEn_params (v : Word) (s : State) : (writeIntEn v s).params = s.params := rfl
@[simp] theorem writeIntEn_doneIe (v : Word) (s : State) : (writeIntEn v s).doneIe = v.getLsbD 0 := rfl
@[simp] theorem writeIntEn_rounds (v : Word) (s : State) : (writeIntEn v s).rounds = s.rounds := rfl
@[simp] theorem writeIntEn_survCount (v : Word) (s : State) : (writeIntEn v s).survCount = s.survCount := rfl
@[simp] theorem writeIntEn_key (v : Word) (s : State) : (writeIntEn v s).key = s.key := rfl
@[simp] theorem writeIntEn_din (v : Word) (s : State) : (writeIntEn v s).din = s.din := rfl
@[simp] theorem writeIntEn_dout (v : Word) (s : State) : (writeIntEn v s).dout = s.dout := rfl
@[simp] theorem writeIntEn_pair1 (v : Word) (s : State) : (writeIntEn v s).pair1 = s.pair1 := rfl
@[simp] theorem writeIntEn_pair2 (v : Word) (s : State) : (writeIntEn v s).pair2 = s.pair2 := rfl
@[simp] theorem writeIntEn_pair3 (v : Word) (s : State) : (writeIntEn v s).pair3 = s.pair3 := rfl
@[simp] theorem writeIntEn_res (v : Word) (s : State) : (writeIntEn v s).res = s.res := rfl
@[simp] theorem writeIntEn_surv (v : Word) (s : State) : (writeIntEn v s).surv = s.surv := rfl
@[simp] theorem writeIntEn_subkeyRam (v : Word) (s : State) : (writeIntEn v s).subkeyRam = s.subkeyRam := rfl
@[simp] theorem writeIntEn_rAct (v : Word) (s : State) : (writeIntEn v s).rAct = s.rAct := rfl
@[simp] theorem writeIntEn_pend (v : Word) (s : State) : (writeIntEn v s).pend = s.pend := rfl
@[simp] theorem writeIntEn_env (v : Word) (s : State) : (writeIntEn v s).env = s.env := rfl

/-! ### loadKeying -/

@[simp] theorem loadKeying_status (ws : List Word) (r : Nat) (s : State) :
    (loadKeying ws r s).status = { s.status with keyed := true } := rfl
@[simp] theorem loadKeying_params (ws : List Word) (r : Nat) (s : State) : (loadKeying ws r s).params = s.params := rfl
@[simp] theorem loadKeying_doneIe (ws : List Word) (r : Nat) (s : State) :
    (loadKeying ws r s).doneIe = s.doneIe := rfl
@[simp] theorem loadKeying_rounds (ws : List Word) (r : Nat) (s : State) :
    (loadKeying ws r s).rounds = s.rounds := rfl
@[simp] theorem loadKeying_survCount (ws : List Word) (r : Nat) (s : State) :
    (loadKeying ws r s).survCount = s.survCount := rfl
@[simp] theorem loadKeying_key (ws : List Word) (r : Nat) (s : State) : (loadKeying ws r s).key = s.key := rfl
@[simp] theorem loadKeying_din (ws : List Word) (r : Nat) (s : State) : (loadKeying ws r s).din = s.din := rfl
@[simp] theorem loadKeying_dout (ws : List Word) (r : Nat) (s : State) : (loadKeying ws r s).dout = s.dout := rfl
@[simp] theorem loadKeying_pair1 (ws : List Word) (r : Nat) (s : State) : (loadKeying ws r s).pair1 = s.pair1 := rfl
@[simp] theorem loadKeying_pair2 (ws : List Word) (r : Nat) (s : State) : (loadKeying ws r s).pair2 = s.pair2 := rfl
@[simp] theorem loadKeying_pair3 (ws : List Word) (r : Nat) (s : State) : (loadKeying ws r s).pair3 = s.pair3 := rfl
@[simp] theorem loadKeying_res (ws : List Word) (r : Nat) (s : State) : (loadKeying ws r s).res = s.res := rfl
@[simp] theorem loadKeying_surv (ws : List Word) (r : Nat) (s : State) : (loadKeying ws r s).surv = s.surv := rfl
@[simp] theorem loadKeying_subkeyRam (ws : List Word) (r : Nat) (s : State) :
    (loadKeying ws r s).subkeyRam = ws ++ s.subkeyRam.drop ws.length := rfl
@[simp] theorem loadKeying_rAct (ws : List Word) (r : Nat) (s : State) : (loadKeying ws r s).rAct = r := rfl
@[simp] theorem loadKeying_pend (ws : List Word) (r : Nat) (s : State) : (loadKeying ws r s).pend = s.pend := rfl
@[simp] theorem loadKeying_env (ws : List Word) (r : Nat) (s : State) : (loadKeying ws r s).env = s.env := rfl

/-! ### commit -/

@[simp] theorem commit_status (p : Phase) (r : Found) (b : Bool) (s : State) :
    (commit p r b s).status = { s.status with sphase := if b = true then phaseNumber p else s.status.sphase, sovf := if b = true then decide (s.params.survMax < r.count) else s.status.sovf, resolved := decide (r.count = 1) } := rfl
@[simp] theorem commit_params (p : Phase) (r : Found) (b : Bool) (s : State) : (commit p r b s).params = s.params := rfl
@[simp] theorem commit_doneIe (p : Phase) (r : Found) (b : Bool) (s : State) :
    (commit p r b s).doneIe = s.doneIe := rfl
@[simp] theorem commit_rounds (p : Phase) (r : Found) (b : Bool) (s : State) :
    (commit p r b s).rounds = s.rounds := rfl
@[simp] theorem commit_survCount (p : Phase) (r : Found) (b : Bool) (s : State) :
    (commit p r b s).survCount = BitVec.ofNat 32 (min r.count 0xFFFFFFFF) := rfl
@[simp] theorem commit_key (p : Phase) (r : Found) (b : Bool) (s : State) : (commit p r b s).key = s.key := rfl
@[simp] theorem commit_din (p : Phase) (r : Found) (b : Bool) (s : State) : (commit p r b s).din = s.din := rfl
@[simp] theorem commit_dout (p : Phase) (r : Found) (b : Bool) (s : State) : (commit p r b s).dout = s.dout := rfl
@[simp] theorem commit_pair1 (p : Phase) (r : Found) (b : Bool) (s : State) : (commit p r b s).pair1 = s.pair1 := rfl
@[simp] theorem commit_pair2 (p : Phase) (r : Found) (b : Bool) (s : State) : (commit p r b s).pair2 = s.pair2 := rfl
@[simp] theorem commit_pair3 (p : Phase) (r : Found) (b : Bool) (s : State) : (commit p r b s).pair3 = s.pair3 := rfl
@[simp] theorem commit_res (p : Phase) (r : Found) (b : Bool) (s : State) :
    (commit p r b s).res = resultOf p r s.res := rfl
@[simp] theorem commit_surv (p : Phase) (r : Found) (b : Bool) (s : State) :
    (commit p r b s).surv = r.list ++ s.surv.drop r.list.length := rfl
@[simp] theorem commit_subkeyRam (p : Phase) (r : Found) (b : Bool) (s : State) :
    (commit p r b s).subkeyRam = s.subkeyRam := rfl
@[simp] theorem commit_rAct (p : Phase) (r : Found) (b : Bool) (s : State) : (commit p r b s).rAct = s.rAct := rfl
@[simp] theorem commit_pend (p : Phase) (r : Found) (b : Bool) (s : State) : (commit p r b s).pend = s.pend := rfl
@[simp] theorem commit_env (p : Phase) (r : Found) (b : Bool) (s : State) : (commit p r b s).env = s.env := rfl

/-! ### clearSearch -/

@[simp] theorem clearSearch_status (s : State) :
    (clearSearch s).status = { s.status with sovf := false, resolved := false, sphase := 0#2, overrun := false } := rfl
@[simp] theorem clearSearch_params (s : State) : (clearSearch s).params = s.params := rfl
@[simp] theorem clearSearch_doneIe (s : State) : (clearSearch s).doneIe = s.doneIe := rfl
@[simp] theorem clearSearch_rounds (s : State) : (clearSearch s).rounds = s.rounds := rfl
@[simp] theorem clearSearch_survCount (s : State) : (clearSearch s).survCount = 0#32 := rfl
@[simp] theorem clearSearch_key (s : State) : (clearSearch s).key = s.key := rfl
@[simp] theorem clearSearch_din (s : State) : (clearSearch s).din = s.din := rfl
@[simp] theorem clearSearch_dout (s : State) : (clearSearch s).dout = s.dout := rfl
@[simp] theorem clearSearch_pair1 (s : State) : (clearSearch s).pair1 = s.pair1 := rfl
@[simp] theorem clearSearch_pair2 (s : State) : (clearSearch s).pair2 = s.pair2 := rfl
@[simp] theorem clearSearch_pair3 (s : State) : (clearSearch s).pair3 = s.pair3 := rfl
@[simp] theorem clearSearch_res (s : State) : (clearSearch s).res = s.res := rfl
@[simp] theorem clearSearch_surv (s : State) : (clearSearch s).surv = s.surv := rfl
@[simp] theorem clearSearch_subkeyRam (s : State) : (clearSearch s).subkeyRam = s.subkeyRam := rfl
@[simp] theorem clearSearch_rAct (s : State) : (clearSearch s).rAct = s.rAct := rfl
@[simp] theorem clearSearch_pend (s : State) : (clearSearch s).pend = s.pend := rfl
@[simp] theorem clearSearch_env (s : State) : (clearSearch s).env = s.env := rfl

/-! ### passTurn -/

@[simp] theorem passTurn_status (s : State) : (passTurn s).status = s.status := rfl
@[simp] theorem passTurn_params (s : State) : (passTurn s).params = s.params := rfl
@[simp] theorem passTurn_doneIe (s : State) : (passTurn s).doneIe = s.doneIe := rfl
@[simp] theorem passTurn_rounds (s : State) : (passTurn s).rounds = s.rounds := rfl
@[simp] theorem passTurn_survCount (s : State) : (passTurn s).survCount = s.survCount := rfl
@[simp] theorem passTurn_key (s : State) : (passTurn s).key = s.key := rfl
@[simp] theorem passTurn_din (s : State) : (passTurn s).din = s.din := rfl
@[simp] theorem passTurn_dout (s : State) : (passTurn s).dout = s.dout := rfl
@[simp] theorem passTurn_pair1 (s : State) : (passTurn s).pair1 = s.pair1 := rfl
@[simp] theorem passTurn_pair2 (s : State) : (passTurn s).pair2 = s.pair2 := rfl
@[simp] theorem passTurn_pair3 (s : State) : (passTurn s).pair3 = s.pair3 := rfl
@[simp] theorem passTurn_res (s : State) : (passTurn s).res = s.res := rfl
@[simp] theorem passTurn_surv (s : State) : (passTurn s).surv = s.surv := rfl
@[simp] theorem passTurn_subkeyRam (s : State) : (passTurn s).subkeyRam = s.subkeyRam := rfl
@[simp] theorem passTurn_rAct (s : State) : (passTurn s).rAct = s.rAct := rfl
@[simp] theorem passTurn_pend (s : State) : (passTurn s).pend = s.pend := rfl
@[simp] theorem passTurn_env (s : State) :
    (passTurn s).env = { s.env with wait := s.env.wait - 1, hostOps := s.env.hostOps.tail } := rfl

/-! ### placeCommand -/

@[simp] theorem placeCommand_status (w : Word) (s : State) : (placeCommand w s).status = s.status := rfl
@[simp] theorem placeCommand_params (w : Word) (s : State) : (placeCommand w s).params = s.params := rfl
@[simp] theorem placeCommand_doneIe (w : Word) (s : State) : (placeCommand w s).doneIe = s.doneIe := rfl
@[simp] theorem placeCommand_rounds (w : Word) (s : State) : (placeCommand w s).rounds = s.rounds := rfl
@[simp] theorem placeCommand_survCount (w : Word) (s : State) : (placeCommand w s).survCount = s.survCount := rfl
@[simp] theorem placeCommand_key (w : Word) (s : State) : (placeCommand w s).key = s.key := rfl
@[simp] theorem placeCommand_din (w : Word) (s : State) : (placeCommand w s).din = s.din := rfl
@[simp] theorem placeCommand_dout (w : Word) (s : State) : (placeCommand w s).dout = s.dout := rfl
@[simp] theorem placeCommand_pair1 (w : Word) (s : State) : (placeCommand w s).pair1 = s.pair1 := rfl
@[simp] theorem placeCommand_pair2 (w : Word) (s : State) : (placeCommand w s).pair2 = s.pair2 := rfl
@[simp] theorem placeCommand_pair3 (w : Word) (s : State) : (placeCommand w s).pair3 = s.pair3 := rfl
@[simp] theorem placeCommand_res (w : Word) (s : State) : (placeCommand w s).res = s.res := rfl
@[simp] theorem placeCommand_surv (w : Word) (s : State) : (placeCommand w s).surv = s.surv := rfl
@[simp] theorem placeCommand_subkeyRam (w : Word) (s : State) : (placeCommand w s).subkeyRam = s.subkeyRam := rfl
@[simp] theorem placeCommand_rAct (w : Word) (s : State) : (placeCommand w s).rAct = s.rAct := rfl
@[simp] theorem placeCommand_pend (w : Word) (s : State) : (placeCommand w s).pend = some w := rfl
@[simp] theorem placeCommand_env (w : Word) (s : State) : (placeCommand w s).env = { s.env with wait := 0 } := rfl

/-! ### complete and raiseError are finish -/

@[simp] theorem complete_eq (s : State) : complete s = finish 0x0#4 s := rfl
@[simp] theorem raiseError_eq (e : ErrorCode) (s : State) : raiseError e s = finish (errorNumber e) s := rfl

/-! ### resetBlock leaves the reset values, and the outside world's own fields -/

@[simp] theorem resetBlock_status (s : State) : (resetBlock s).status = State.reset.status := rfl
@[simp] theorem resetBlock_params (s : State) : (resetBlock s).params = s.params := rfl
@[simp] theorem resetBlock_doneIe (s : State) : (resetBlock s).doneIe = State.reset.doneIe := rfl
@[simp] theorem resetBlock_rounds (s : State) : (resetBlock s).rounds = State.reset.rounds := rfl
@[simp] theorem resetBlock_survCount (s : State) : (resetBlock s).survCount = State.reset.survCount := rfl
@[simp] theorem resetBlock_key (s : State) : (resetBlock s).key = State.reset.key := rfl
@[simp] theorem resetBlock_din (s : State) : (resetBlock s).din = State.reset.din := rfl
@[simp] theorem resetBlock_dout (s : State) : (resetBlock s).dout = State.reset.dout := rfl
@[simp] theorem resetBlock_pair1 (s : State) : (resetBlock s).pair1 = State.reset.pair1 := rfl
@[simp] theorem resetBlock_pair2 (s : State) : (resetBlock s).pair2 = State.reset.pair2 := rfl
@[simp] theorem resetBlock_pair3 (s : State) : (resetBlock s).pair3 = State.reset.pair3 := rfl
@[simp] theorem resetBlock_res (s : State) : (resetBlock s).res = State.reset.res := rfl
@[simp] theorem resetBlock_rAct (s : State) : (resetBlock s).rAct = State.reset.rAct := rfl
@[simp] theorem resetBlock_pend (s : State) : (resetBlock s).pend = State.reset.pend := rfl
@[simp] theorem resetBlock_env (s : State) :
    (resetBlock s).env = { s.env with wait := 0, draws := s.env.draws + 1 } := rfl

end Sys2Proof.Machine
end

