-- ==== Sys2Proof/Laws/Search.lean ====
section
/-! SUPPORT. What a sweep step does, how many entries a sweep or a refilter keeps, the sweep with one hit, and how a
SEARCH ends. -/

namespace Sys2Proof.Machine

theorem sweepStep_hit {f1 f2 : Word → Word} {k : Word} (h : f1 k = f2 k) (cap : Nat) (acc : Found) :
    sweepStep cap f1 f2 k acc =
      { count := acc.count + 1
        list := if acc.list.length < cap then acc.list ++ [⟨k, f1 k⟩] else acc.list } := by
  simp [sweepStep, h]

theorem sweepStep_miss {f1 f2 : Word → Word} {k : Word} (h : f1 k ≠ f2 k) (cap : Nat) (acc : Found) :
    sweepStep cap f1 f2 k acc = acc := by
  simp [sweepStep, h]

/-- The list holds min(N, cap) entries after any part of a sweep (41_search.md R139). -/
theorem sweepBelow_length (cap : Nat) (f1 f2 : Word → Word) (n : Nat) :
    (sweepBelow cap f1 f2 n).list.length = min (sweepBelow cap f1 f2 n).count cap := by
  induction n with
  | zero => simp [sweepBelow]
  | succ n ih =>
    rw [sweepBelow]
    by_cases h : f1 (BitVec.ofNat 32 n) = f2 (BitVec.ofNat 32 n)
    · rw [sweepStep_hit h]
      dsimp only
      split
      · rw [List.length_append, ih]; simp; omega
      · omega
    · rw [sweepStep_miss h, ih]

theorem sweep_length (cap : Nat) (f1 f2 : Word → Word) :
    (sweep cap f1 f2).list.length = min (sweep cap f1 f2).count cap := by
  rw [sweep]; exact sweepBelow_length cap f1 f2 wordSpace

/-- A sweep that no word before n hits has found nothing yet. -/
theorem sweepBelow_none {f1 f2 : Word → Word} (cap n : Nat)
    (h : ∀ m, m < n → f1 (BitVec.ofNat 32 m) ≠ f2 (BitVec.ofNat 32 m)) :
    sweepBelow cap f1 f2 n = { count := 0, list := [] } := by
  induction n with
  | zero => rfl
  | succ n ih => rw [sweepBelow, sweepStep_miss (h n (Nat.lt_succ_self n)), ih fun m hm => h m (by omega)]

/-- A sweep with one hit keeps it and counts 1 (41_search.md R139). -/
theorem sweep_of_unique {f1 f2 : Word → Word} {a : Word} (h : ∀ k, f1 k = f2 k ↔ k = a) {cap : Nat}
    (hc : 0 < cap) : sweep cap f1 f2 = { count := 1, list := [⟨a, f1 a⟩] } := by
  have miss : ∀ m, m < wordSpace → m ≠ a.toNat → f1 (BitVec.ofNat 32 m) ≠ f2 (BitVec.ofNat 32 m) := by
    intro m hm hne he
    have e := congrArg BitVec.toNat ((h _).1 he)
    rw [wordSpace] at hm
    rw [BitVec.toNat_ofNat, Nat.mod_eq_of_lt hm] at e
    exact hne e
  have upTo : ∀ n, n ≤ wordSpace → a.toNat < n →
      sweepBelow cap f1 f2 n = { count := 1, list := [⟨a, f1 a⟩] } := by
    intro n
    induction n with
    | zero => intro _ h0; exact absurd h0 (Nat.not_lt_zero _)
    | succ n ih =>
      intro hn ha
      rw [sweepBelow]
      by_cases hlt : a.toNat < n
      · rw [ih (by omega) hlt, sweepStep_miss (miss n (by omega) (by omega))]
      · have hna : n = a.toNat := by omega
        rw [sweepBelow_none cap n fun m hm => miss m (by omega) (by omega), hna, BitVec.ofNat_toNat,
          BitVec.setWidth_eq, sweepStep_hit ((h a).2 rfl)]
        simp [hc]
  rw [sweep]
  exact upTo wordSpace (Nat.le_refl _) a.isLt

/-- A SEARCH ends by completing, whatever it found: the committed state but for ERRCODE, DONE and PEND. -/
theorem searchEnd_eq (r : Found) (s : State) : ∃ c, searchEnd r s = finish c s := by
  unfold searchEnd
  split
  · exact ⟨_, rfl⟩
  · split <;> exact ⟨_, rfl⟩

/-- A SEARCH names its phase in SPHASE, whatever it found (10_state.md R36). -/
theorem searchCommand_sphase (p : Phase) (f1 f2 : Word → Word) (s : State) :
    (searchCommand p f1 f2 s).status.sphase = phaseNumber p := by
  obtain ⟨c, h⟩ := searchEnd_eq (sweep s.params.survMax f1 f2) (commit p (sweep s.params.survMax f1 f2) true s)
  rw [searchCommand, h]
  rfl

/-- A refilter keeps at most the entries it is given (41_search.md R140). -/
theorem refilter_length_le (g1 g3 : Word → Word) (l : List Survivor) :
    (refilter g1 g3 l).length ≤ l.length := by
  induction l with
  | nil => simp [refilter]
  | cons e rest ih =>
    rw [refilter]
    split
    · simpa using ih
    · exact Nat.le_succ_of_le ih

/-- The code a SEARCH ends with (41_search.md R135, R137). -/
theorem searchEnd_errcode (r : Found) (s : State) :
    (searchEnd r s).status.errcode =
      if r.count = 0 then 0x4#4 else if s.params.survMax < r.count then 0x6#4 else 0x0#4 := by
  unfold searchEnd
  by_cases h0 : r.count = 0
  · rw [if_pos h0, if_pos h0, raiseError_eq, finish_status, errorNumber]
  · rw [if_neg h0, if_neg h0]
    by_cases h1 : s.params.survMax < r.count
    · rw [if_pos h1, if_pos h1, raiseError_eq, finish_status, errorNumber]
    · rw [if_neg h1, if_neg h1, complete_eq, finish_status]

end Sys2Proof.Machine
end

