-- ==== Sys2Proof/Laws/Agreeing.lean ====
section
/-! SUPPORT. The list of words on which two candidate functions agree: what is in it, and the three cases where it is
known whole. It has up to 2^32 entries, so it is reasoned about and never evaluated. -/

namespace Sys2Proof.Machine

theorem mem_agreeing (f1 f2 : Word → Word) (k : Word) : k ∈ agreeing f1 f2 ↔ f1 k = f2 k := by
  unfold agreeing
  rw [List.mem_filter, List.mem_map, decide_eq_true_iff]
  exact ⟨And.right, fun h => ⟨⟨k.toNat, List.mem_range.2 k.isLt, BitVec.ofNat_toNat 32 k⟩, h⟩⟩

theorem agreeing_nodup (f1 f2 : Word → Word) : (agreeing f1 f2).Nodup := by
  unfold agreeing
  refine (List.Nodup.map_on ?_ List.nodup_range).filter _
  intro a ha b hb h
  have h := congrArg BitVec.toNat h
  rw [List.mem_range, wordSpace] at ha hb
  rwa [BitVec.toNat_ofNat, BitVec.toNat_ofNat, Nat.mod_eq_of_lt ha, Nat.mod_eq_of_lt hb] at h

theorem agreeing_eq_nil {f1 f2 : Word → Word} (h : ∀ k, f1 k ≠ f2 k) : agreeing f1 f2 = [] :=
  List.eq_nil_iff_forall_not_mem.2 fun k hk => h k ((mem_agreeing f1 f2 k).1 hk)

theorem agreeing_eq_singleton {f1 f2 : Word → Word} {a : Word} (h : ∀ k, f1 k = f2 k ↔ k = a) :
    agreeing f1 f2 = [a] :=
  List.perm_singleton.1 <|
    (List.perm_ext_iff_of_nodup (agreeing_nodup f1 f2) (List.nodup_singleton a)).2 fun k => by
      rw [mem_agreeing, h, List.mem_singleton]

theorem agreeing_length_of_forall {f1 f2 : Word → Word} (h : ∀ k, f1 k = f2 k) :
    (agreeing f1 f2).length = wordSpace := by
  unfold agreeing
  rw [List.filter_eq_self.2 fun k _ => decide_eq_true (h k), List.length_map, List.length_range]

end Sys2Proof.Machine
end

