-- ==== Sys2Proof/Laws/Arith.lean ====
section
/-! SUPPORT. The rotations as BitVec's own rotations, so that the library's lemmas about those apply. -/

namespace Sys2Proof.Machine

theorem rotAmount_eq (n : Word) : rotAmount n = n.toNat % 32 := by
  simp [rotAmount, BitVec.extractLsb'_toNat]

theorem rotAmount_lt (n : Word) : rotAmount n < 32 := by
  rw [rotAmount_eq]; omega

theorem rotl_eq_rotateLeft (x n : Word) : rotl x n = x.rotateLeft n.toNat := by
  rw [rotl, rotAmount_eq, BitVec.rotateLeft_def]
  split
  · next h => simp [h, BitVec.ushiftRight_eq_zero]
  · rfl

theorem rotr_eq_rotateRight (x n : Word) : rotr x n = x.rotateRight n.toNat := by
  rw [rotr, rotAmount_eq, BitVec.rotateRight_def]
  split
  · next h => simp [h, BitVec.shiftLeft_eq_zero]
  · rfl

end Sys2Proof.Machine
end

