-- ==== Sys2Proof/Laws/Cipher.lean ====
section
/-! SUPPORT. What the key schedule and the block functions depend on. -/

namespace Sys2Proof.Machine

@[simp] theorem initWords_length (q : Word) (n : Nat) (w : Word) : (initWords q n w).length = n := by
  induction n generalizing w with
  | zero => rfl
  | succ n ih => simp [initWords, ih]

@[simp] theorem mixStep_length (t : Nat) (m : MixState) : (mixStep t m).s.length = m.s.length := by
  simp [mixStep]

@[simp] theorem mixLoop_length (t n : Nat) (m : MixState) : (mixLoop t n m).s.length = m.s.length := by
  induction n generalizing m with
  | zero => rfl
  | succ n ih => simp [mixLoop, ih]

/-- A key schedule for R rounds gives T = 2(R + 1) words (40_cipher.md R107). -/
@[simp] theorem keySchedule_length (p q : Word) (k : Key) (r : Nat) :
    (keySchedule p q k r).length = 2 * (r + 1) := by
  simp [keySchedule]

/-- Encryption for r rounds reads no subkey beyond 2r + 1 (40_cipher.md R114). -/
theorem encryptBlock_congr (f g : Nat → Word) (r : Nat) (blk : Block)
    (h : ∀ m, m < 2 * (r + 1) → f m = g m) : encryptBlock f r blk = encryptBlock g r blk := by
  have rounds : ∀ n, n ≤ r → ∀ b, encryptRounds f n b = encryptRounds g n b := by
    intro n
    induction n with
    | zero => intros; rfl
    | succ n ih =>
      intro hn b
      have h0 := h (2 * (n + 1)) (by omega)
      have h1 := h (2 * (n + 1) + 1) (by omega)
      simp [encryptRounds, encryptRound, ih (by omega), h0, h1]
  simp [encryptBlock, h 0 (by omega), h 1 (by omega), rounds r (Nat.le_refl r)]

/-- Decryption for r rounds reads no subkey beyond 2r + 1 (40_cipher.md R114). -/
theorem decryptBlock_congr (f g : Nat → Word) (r : Nat) (blk : Block)
    (h : ∀ m, m < 2 * (r + 1) → f m = g m) : decryptBlock f r blk = decryptBlock g r blk := by
  have rounds : ∀ n, n ≤ r → ∀ b, decryptRounds f n b = decryptRounds g n b := by
    intro n
    induction n with
    | zero => intros; rfl
    | succ n ih =>
      intro hn b
      have h0 := h (2 * (n + 1)) (by omega)
      have h1 := h (2 * (n + 1) + 1) (by omega)
      simp [decryptRounds, decryptRound, ih (by omega), h0, h1]
  simp [decryptBlock, h 0 (by omega), h 1 (by omega), rounds r (Nat.le_refl r)]

end Sys2Proof.Machine
end

