-- ==== Sys2Proof/Laws/Ops.lean ====
section
/-! SUPPORT. For each shared operation, one lemma that says everything it can do. -/

namespace Sys2Proof.Machine

/-! ### Host reads -/

/-- A read of the bus changes nothing but the host's data and the counter of draws (20_memory.md R68). -/
theorem busRead_eq (addr : Nat) (s : State) :
    ∃ d, busRead addr s =
      { s with env := { s.env with lastRead := some (busReadValue addr s), draws := d } } ∧
      (d = s.env.draws ∨ d = s.env.draws + 1) := by
  rw [busRead]
  dsimp only
  split
  · split
    · exact ⟨s.env.draws + 1, rfl, .inr rfl⟩
    · exact ⟨s.env.draws, rfl, .inl rfl⟩
  · exact ⟨s.env.draws, rfl, .inl rfl⟩

@[simp] theorem busRead_lastRead (addr : Nat) (s : State) :
    (busRead addr s).env.lastRead = some (busReadValue addr s) := by
  obtain ⟨d, h, -⟩ := busRead_eq addr s; rw [h]

@[simp] theorem busRead_hostOps (addr : Nat) (s : State) :
    (busRead addr s).env.hostOps = s.env.hostOps := by
  obtain ⟨d, h, -⟩ := busRead_eq addr s; rw [h]

@[simp] theorem busRead_wait (addr : Nat) (s : State) : (busRead addr s).env.wait = s.env.wait := by
  obtain ⟨d, h, -⟩ := busRead_eq addr s; rw [h]

@[simp] theorem busRead_pend (addr : Nat) (s : State) : (busRead addr s).pend = s.pend := by
  obtain ⟨d, h, -⟩ := busRead_eq addr s; rw [h]

/-- The block's own state is as it was after a read. -/
theorem busRead_block (addr : Nat) (s : State) : { busRead addr s with env := s.env } = s := by
  obtain ⟨d, h, -⟩ := busRead_eq addr s; rw [h]

/-! ### Host writes -/

theorem busWrite_busy {s : State} (h : busyBit s = true) (addr : Nat) (v : Word) :
    busWrite addr v s = { s with status := { s.status with overrun := true } } := by
  simp [busWrite, h]

theorem busWrite_idle {s : State} (h : busyBit s = false) {addr : Nat} {r : Reg} (hr : regAt s.params addr = some r)
    (v : Word) : busWrite addr v s = writeReg r v s := by
  simp [busWrite, h, hr]

theorem busWrite_reserved {s : State} (h : busyBit s = false) {addr : Nat} (hr : regAt s.params addr = none)
    (v : Word) : busWrite addr v s = s := by
  simp [busWrite, h, hr]

/-! ### Accesses -/

theorem accessFault_none_iff (addr width : Nat) :
    accessFault addr width = none ↔ addr < windowBytes ∧ width = 4 ∧ addr % 4 = 0 := by
  unfold accessFault
  split
  · simp; omega
  · split
    · simp; omega
    · simp; omega

/-! ### The engine -/

theorem engineReady_eq_some_iff (s : State) (w : Word) :
    engineReady s = some w ↔ s.pend = some w ∧ s.env.wait = 0 := by
  unfold engineReady
  split
  · next v hv => rw [hv]; split <;> simp_all
  · next hv => simp [hv]

theorem engineReady_eq_none_iff (s : State) :
    engineReady s = none ↔ s.pend = none ∨ s.env.wait ≠ 0 := by
  unfold engineReady
  split
  · next v hv => rw [hv]; split <;> simp_all
  · next hv => simp [hv]

/-- Every command, in every state, ends in a next state (30_encoding.md R84). -/
theorem exec_next (i : Instr) (s : State) : ∃ t, exec i s = .next t := by
  cases i <;> exact ⟨_, rfl⟩

/-- So does every command word (R83, R84). -/
theorem perform_next (w : Word) (s : State) : ∃ t, perform w s = .next t := by
  unfold perform
  split
  · exact exec_next _ s
  · exact ⟨_, rfl⟩

/-! ### Turns -/

/-- What a host operation that answers a next state did. -/
theorem hostOp_cases {op : HostOp} {s t : State} (h : hostOp op s = .next t) :
    (∃ addr, t = busRead addr s) ∨
    (∃ addr v, t = busWrite addr v s) ∨
    (busyBit s = true ∧ op = .waitIdle ∧
      t = busRead (regOffset .status) { s with env := { s.env with hostOps := .waitIdle :: s.env.hostOps } }) ∨
    t = s ∨ t = resetBlock s := by
  cases op with
  | read addr width =>
    simp only [hostOp, hostRead] at h
    split at h
    · cases h
    · cases h; exact .inl ⟨addr, rfl⟩
  | write addr width v =>
    simp only [hostOp, hostWrite] at h
    split at h
    · cases h
    · cases h; exact .inr (.inl ⟨addr, v, rfl⟩)
  | check addr mask want =>
    simp only [hostOp, hostCheck] at h
    split at h
    · cases h
    · split at h
      · cases h; exact .inl ⟨addr, rfl⟩
      · cases h
  | waitIdle =>
    simp only [hostOp, hostWait] at h
    split at h
    · next hb => cases h; exact .inr (.inr (.inl ⟨hb, rfl, rfl⟩))
    · cases h; exact .inl ⟨_, rfl⟩
  | idle => cases h; exact .inr (.inr (.inr (.inl rfl)))
  | reset => cases h; exact .inr (.inr (.inr (.inr rfl)))

/-- What a step that answers a next state did: the engine performed the pending command, or the host had its turn. -/
theorem step_cases {s t : State} (h : step s = .next t) :
    (∃ w, s.pend = some w ∧ s.env.wait = 0 ∧ perform w s = .next t) ∨
    (engineReady s = none ∧ s.env.hostOps = [] ∧ t = passTurn s) ∨
    (∃ op rest, engineReady s = none ∧ s.env.hostOps = op :: rest ∧ hostOp op (passTurn s) = .next t) := by
  unfold step at h
  split at h
  · next w hw =>
    obtain ⟨h1, h2⟩ := (engineReady_eq_some_iff s w).1 hw
    exact .inl ⟨w, h1, h2, h⟩
  · next hn =>
    unfold hostTurn at h
    split at h
    · next he => cases h; exact .inr (.inl ⟨hn, he, rfl⟩)
    · next op rest he => exact .inr (.inr ⟨op, rest, hn, he, h⟩)

end Sys2Proof.Machine
end

