-- ==== Sys2Proof/Laws/PerInstr.lean ====
section
/-! SUPPORT. A family of facts made per instruction: the fields of each command's word (30_encoding.md R81, R82). -/

namespace Sys2Proof.Laws.EncodeFields

/-- The encoder writes the opcode in OP and zeros in RSV. -/
def Statement (i : Instr) : Prop := opField (encode i) = opcode i ∧ rsvField (encode i) = 0#24

theorem nop : Statement .nop := ⟨rfl, rfl⟩
theorem keyset : Statement .keyset := ⟨rfl, rfl⟩
theorem encrypt : Statement .encrypt := ⟨rfl, rfl⟩
theorem decrypt : Statement .decrypt := ⟨rfl, rfl⟩
theorem search1 : Statement .search1 := ⟨rfl, rfl⟩
theorem filter1 : Statement .filter1 := ⟨rfl, rfl⟩
theorem search2 : Statement .search2 := ⟨rfl, rfl⟩
theorem filter2 : Statement .filter2 := ⟨rfl, rfl⟩
theorem clear : Statement .clear := ⟨rfl, rfl⟩

end Sys2Proof.Laws.EncodeFields
end

