-- ==== Sys2Proof/Laws/Regs.lean ====
section
/-! SUPPORT. The registers with an offset of their own are found there in every block, whatever its parameters. -/

namespace Sys2Proof.Machine

theorem regAt_of_lt {addr : Nat} (h : addr < 0x200) (c : Params) :
    regAt c addr = namedRegs.find? fun r => regOffset r == addr := by
  rw [regAt, if_pos h]

theorem regAt_named {r : Reg} (h : r ∈ namedRegs) (c : Params) : regAt c (regOffset r) = some r := by
  have key : ∀ r ∈ namedRegs,
      regOffset r < 0x200 ∧ (namedRegs.find? fun q => regOffset q == regOffset r) = some r := by decide
  rw [regAt_of_lt (key r h).1, (key r h).2]

end Sys2Proof.Machine
end

