-- ==== Sys2Proof/Laws/Run.lean ====
section
/-! SUPPORT. One more step of a run, for any machine behind the host's interface. -/

namespace Sys2Proof.Machine

theorem run_succ_of_next (M : Host.Core) (k : Nat) (s u : M.State) (h : M.step s = .next u) :
    M.run (k + 1) s = M.run k u := by
  rw [Host.Core.run, h]

end Sys2Proof.Machine
end

