-- ==== Sys2Proof/Laws/Storage.lean ====
section
/-! SUPPORT. The storage arrays keep their sizes: every operation that writes one keeps `Memory.wf`, and the state
right after reset has it. -/

namespace Sys2Proof.Machine

theorem resetWith_memory_wf (c : Params) : Memory.wf (State.resetWith c) := by
  constructor <;> simp [State.resetWith]

theorem reset_memory_wf : Memory.wf State.reset := resetWith_memory_wf Config.defaults

theorem resetBlock_memory_wf (s : State) : Memory.wf (resetBlock s) := by
  constructor <;> simp [resetBlock]

theorem loadKeying_memory_wf {s : State} (h : Memory.wf s) {ws : List Word} (hw : ws.length ≤ s.params.tMax)
    (r : Nat) : Memory.wf (loadKeying ws r s) := by
  refine ⟨h.1, ?_⟩
  have := h.2
  simp; omega

theorem commit_memory_wf {s : State} (h : Memory.wf s) {r : Found} (hr : r.list.length ≤ s.params.survMax)
    (p : Phase) (b : Bool) : Memory.wf (commit p r b s) := by
  refine ⟨?_, h.2⟩
  have := h.1
  simp; omega

theorem writeReg_memory_wf {s : State} (h : Memory.wf s) (r : Reg) (v : Word) : Memory.wf (writeReg r v s) := by
  cases r <;> exact h

theorem busWrite_memory_wf {s : State} (h : Memory.wf s) (addr : Nat) (v : Word) :
    Memory.wf (busWrite addr v s) := by
  unfold busWrite
  split
  · exact h
  · split
    · exact writeReg_memory_wf h _ v
    · exact h

theorem busRead_memory_wf {s : State} (h : Memory.wf s) (addr : Nat) : Memory.wf (busRead addr s) := by
  obtain ⟨d, e, -⟩ := busRead_eq addr s
  rw [e]; exact h

end Sys2Proof.Machine
end

