-- ==== Sys2Proof/Tests/Slice0.lean ====
section
/-! SUPPORT. The model's own tests: expected values are spec/95_test_vectors.md's (named in each docstring) or worked out by
hand from the rule named; and one witness for each statement of Certificates/Slice0/Obligations.lean that has hypotheses,
named after it: a concrete state and operands that meet them, at the boundary values of each clause. A sweep is never
evaluated: where a witness needs one, a lemma of Laws/ says what it finds. -/

namespace Sys2Proof.Tests

open Sys2Proof.Machine

/-! ### Helpers -/

/-- The state an outcome goes on with (the reset state where it stops). -/
def after : Host.Outcome State Fault Refusal → State
  | .next t => t
  | .fault _ => State.reset
  | .refused _ => State.reset

/-- The fault an outcome stops with. -/
def faultOf : Host.Outcome State Fault Refusal → Option Fault
  | .next _ => none
  | .fault f => some f
  | .refused _ => none

/-- Idle after reset, the host about to do `op`. -/
def host (op : HostOp) : State := { State.reset with env := { State.reset.env with hostOps := [op] } }

/-- A NOP pending for one more host turn, the host about to do `op`. -/
def busyHost (op : HostOp) : State :=
  { State.reset with pend := some 0#32, env := { State.reset.env with hostOps := [op], wait := 1 } }

/-- Key zero, ROUNDS = 1, expanded. -/
def keyed : State := after (exec .keyset { State.reset with rounds := 1#32 })

/-- The pairs of vector S-1. -/
def pairOne : Pair := ⟨⟨0x00000000#32, 0x00000000#32⟩, ⟨0xB71C967E#32, 0x4924FA4D#32⟩⟩
def pairTwo : Pair := ⟨⟨0x11111111#32, 0x22222222#32⟩, ⟨0x95E63115#32, 0x023AA46C#32⟩⟩
def pairThree : Pair := ⟨⟨0x01234567#32, 0x89ABCDEF#32⟩, ⟨0x30B9F2DE#32, 0x0AF0AFE9#32⟩⟩

/-- The state vector S-3 gives after SEARCH1 on the pairs of S-1 (two survivors, phase 1), with pair 3 loaded. -/
def phaseOne : State :=
  { State.reset with
    pair1 := pairOne
    pair2 := pairTwo
    pair3 := pairThree
    survCount := 2#32
    surv := [⟨0x0F7DDBC5#32, 0x5180EC5E#32⟩, ⟨0xD7BA7E35#32, 0x72B5661F#32⟩]
      ++ List.replicate 14 ⟨0#32, 0#32⟩
    status := { State.reset.status with sphase := 1#2 } }

/-- The state vector S-3 gives after SEARCH2 (one survivor, phase 2). -/
def phaseTwo : State :=
  { phaseOne with
    survCount := 1#32
    surv := [⟨0x7939B522#32, 0x0970A4A7#32⟩] ++ List.replicate 15 ⟨0#32, 0#32⟩
    res := { s0 := 0x0970A4A7#32, s1 := 0x72B5661F#32, s2 := 0x7939B522#32, s3 := 0xD7BA7E35#32 }
    status := { State.reset.status with sphase := 2#2, resolved := true } }

/-- Two pairs of the keying S = (0, 31, 0, 0) for which S3 = 0 is the one survivor of phase 1. -/
def uniqueOne : State :=
  { State.reset with
    pair1 := ⟨⟨31#32, 0#32⟩, ⟨0#32, 31#32⟩⟩
    pair2 := ⟨⟨33#32, 0#32⟩, ⟨31#32, 0#32⟩⟩ }

/-- Two pairs of the keying S = (31, 0, 0, 0) for which S2 = 0 is the one survivor of phase 2. -/
def uniqueTwo : State :=
  { State.reset with
    pair1 := ⟨⟨0#32, 0#32⟩, ⟨31#32, 0x8000000F#32⟩⟩
    pair2 := ⟨⟨0#32, 31#32⟩, ⟨0#32, 31#32⟩⟩ }

/-- Pairs that differ in P.B and P.A only: no word survives either phase. -/
def hopeless : State :=
  { State.reset with pair2 := ⟨⟨1#32, 1#32⟩, ⟨0#32, 0#32⟩⟩ }

/-- The parameters at the least legal sizes (00_scope.md R6): R_MAX = 20, so T_MAX = 42, and SURV_MAX = 1; P = 1, Q = 3. -/
def smallest : Params := { rMax := 20, survMax := 1, pMagic := 1#32, qMagic := 3#32 }

theorem smallest_legal : smallest.Legal := by constructor <;> decide

theorem defaults_legal : Config.defaults.Legal := by constructor <;> decide

/-! ### Well-formedness -/

/-- Parameters outside the ranges of 00_scope.md R6: each bound passed by one, an even P and an even Q. -/
theorem test_params_legal :
    ¬ { smallest with rMax := 19 }.Legal ∧ ¬ { smallest with rMax := 256 }.Legal ∧
    ¬ { smallest with survMax := 0 }.Legal ∧ ¬ { smallest with survMax := 65 }.Legal ∧
    ¬ { smallest with pMagic := 2#32 }.Legal ∧ ¬ { smallest with qMagic := 2#32 }.Legal :=
  ⟨fun h => absurd h.rMax_ge (by decide), fun h => absurd h.rMax_le (by decide),
    fun h => absurd h.survMax_ge (by decide), fun h => absurd h.survMax_le (by decide),
    fun h => absurd h.pMagic_odd (by decide), fun h => absurd h.qMagic_odd (by decide)⟩

/-- Register indexes beyond the windows (10_state.md R23). -/
theorem test_reg_wf : Reg.wf (.survCand 63) = true ∧ Reg.wf (.survCand 64) = false ∧
    Reg.wf (.survPaired 63) = true ∧ Reg.wf (.survPaired 64) = false ∧
    Reg.wf (.subkey 511) = true ∧ Reg.wf (.subkey 512) = false := by decide

/-- Accesses the block does not support (20_memory.md R61 to R63): outside, misaligned, narrow. -/
theorem test_access_wf : accessWf 0xFFC 4 = true ∧ accessWf 0x1000 4 = false ∧ accessWf 0x002 4 = false ∧
    accessWf 0x000 2 = false ∧ HostOp.wf (.read 0x1000 4) = false ∧ HostOp.wf (.write 0x001 4 0#32) = false ∧
    HostOp.wf (.check 0x003 0#32 0#32) = false := by decide

/-- Statements on registers the map does not have (30_encoding.md R88). -/
theorem test_stmt_wf : HostStmt.wf (.wr (.subkey 512) 0#32) = false ∧ HostStmt.wf (.rd (.survCand 64)) = false ∧
    HostStmt.wf (.rdEq (.survPaired 64) 0#32) = false ∧ HostStmt.wf (.rd (.subkey 511)) = true := by decide

/-! ### Decoding (vector X-3; the words written out from the table of 30_encoding.md R82) -/

theorem test_decode_words :
    decode 0b00000000000000000000000000000000#32 = .ok .nop ∧
    decode 0b00000000000000000000000000000001#32 = .ok .keyset ∧
    decode 0b00000000000000000000000000000010#32 = .ok .encrypt ∧
    decode 0b00000000000000000000000000000011#32 = .ok .decrypt ∧
    decode 0b00000000000000000000000000010000#32 = .ok .search1 ∧
    decode 0b00000000000000000000000000010001#32 = .ok .filter1 ∧
    decode 0b00000000000000000000000000010010#32 = .ok .search2 ∧
    decode 0b00000000000000000000000000010011#32 = .ok .filter2 ∧
    decode 0b00000000000000000000000000100000#32 = .ok .clear := ⟨rfl, rfl, rfl, rfl, rfl, rfl, rfl, rfl, rfl⟩

theorem test_decode_illegal :
    decode 0x00000004#32 = .error .undefinedOp ∧ decode 0x0000000F#32 = .error .undefinedOp ∧
    decode 0x00000014#32 = .error .undefinedOp ∧ decode 0x0000001F#32 = .error .undefinedOp ∧
    decode 0x00000021#32 = .error .undefinedOp ∧ decode 0x000000FF#32 = .error .undefinedOp ∧
    decode 0x00000101#32 = .error .reservedBits ∧ decode 0x00000110#32 = .error .reservedBits ∧
    decode 0x80000000#32 = .error .reservedBits ∧ decode 0xFFFFFFFF#32 = .error .reservedBits :=
  ⟨rfl, rfl, rfl, rfl, rfl, rfl, rfl, rfl, rfl, rfl⟩

/-- A little-endian host's four bytes, with a byte after them, and three bytes only. -/
theorem test_decode_bytes :
    decodeBytes [0x13#8, 0x00#8, 0x00#8, 0x00#8, 0xAA#8] = .ok (.filter2, [0xAA#8]) ∧
    decodeBytes [0x00#8, 0x00#8, 0x00#8, 0x13#8] = .error .reservedBits ∧
    decodeBytes [0x00#8, 0x00#8, 0x00#8] = .error .truncated := ⟨rfl, rfl, rfl⟩

theorem test_encode : encode .filter1 = 0x00000011#32 ∧ encode .clear = 0x00000020#32 := by decide

theorem test_table_word : decodeTableWord 32 0x00000012 = some .search2 ∧ decodeTableWord 8 0x20 = some .clear ∧
    decodeTableWord 32 0x00000004 = none := by decide

/-! ### Word arithmetic (vectors A-1 to A-9) -/

theorem test_add_sub_xor : 0xFFFFFFFF#32 + 0x00000001#32 = 0x00000000#32 ∧
    0x00000000#32 - 0x00000001#32 = 0xFFFFFFFF#32 ∧ 0x12345678#32 ^^^ 0xFFFFFFFF#32 = 0xEDCBA987#32 := by decide

theorem test_rotations : rotl 0x80000001#32 1#32 = 0x00000003#32 ∧ rotl 0x12345678#32 0#32 = 0x12345678#32 ∧
    rotl 0x12345678#32 32#32 = 0x12345678#32 ∧ rotl 0x12345678#32 36#32 = 0x23456781#32 ∧
    rotl 0x12345678#32 0xFFFFFFFF#32 = 0x091A2B3C#32 ∧ rotr 0x12345678#32 4#32 = 0x81234567#32 ∧
    rotl 0x81234567#32 4#32 = 0x12345678#32 ∧ rotr 0x00000001#32 1#32 = 0x80000000#32 := by decide

/-- Key bytes 00 to 0F (20_memory.md R66) and the ciphertext bytes of vector K-5. -/
theorem test_byte_order : le32 0x00#8 0x01#8 0x02#8 0x03#8 = 0x03020100#32 ∧
    bytesLe32 0xEEDBA521#32 = [0x21#8, 0xA5#8, 0xDB#8, 0xEE#8] ∧
    bytesLe32 0x6D8F4B15#32 = [0x15#8, 0x4B#8, 0x8F#8, 0x6D#8] := by decide

/-! ### Cipher engine -/

/-- Vector K-3 for R = 0, 1 and 2 (key zero), for key seq and for key ones; K-4 is the row R = 0. -/
theorem test_keyset_schedule :
    keySchedule Config.defaults.pMagic Config.defaults.qMagic ⟨0#32, 0#32, 0#32, 0#32⟩ 0 = [0xD0A2E94D#32, 0x95AC31E0#32] ∧
    keySchedule Config.defaults.pMagic Config.defaults.qMagic ⟨0#32, 0#32, 0#32, 0#32⟩ 2 =
      [0xF71DCC57#32, 0x1962DACA#32, 0x115A6899#32, 0x45500418#32, 0x75E7DD4F#32, 0x5D270D8F#32] ∧
    keySchedule Config.defaults.pMagic Config.defaults.qMagic ⟨0x03020100#32, 0x07060504#32, 0x0B0A0908#32, 0x0F0E0D0C#32⟩ 1 =
      [0x1AA6FA2E#32, 0x8D70A334#32, 0x0699E321#32, 0xF286C310#32] ∧
    keySchedule Config.defaults.pMagic Config.defaults.qMagic ⟨0xFFFFFFFF#32, 0xFFFFFFFF#32, 0xFFFFFFFF#32, 0xFFFFFFFF#32⟩ 1 =
      [0xD60043D1#32, 0x29DE98C9#32, 0x5F25E547#32, 0x53DE8594#32] := by decide +kernel

/-- Vector K-5, the published RC5-32/12/16 example. -/
theorem test_encrypt_published :
    encryptBlock (fun m =>
      (keySchedule Config.defaults.pMagic Config.defaults.qMagic ⟨0#32, 0#32, 0#32, 0#32⟩ 12).getD m 0#32) 12
      ⟨0#32, 0#32⟩ = ⟨0xEEDBA521#32, 0x6D8F4B15#32⟩ := by decide +kernel

/-- Vector K-6: ROUNDS = 256 is E_ROUNDS and keeps the keying; SUBKEY[4] is beyond T_ACT. -/
theorem test_keyset_register :
    regValue (.subkey 3) keyed = 0xD7BA7E35#32 ∧ regValue (.subkey 4) keyed = 0#32 ∧
    statusWord keyed = 0x0000000A#32 ∧
    statusWord (after (exec .keyset { keyed with rounds := 256#32 })) = 0x0000030E#32 ∧
    regValue (.subkey 3) (after (exec .keyset { keyed with rounds := 256#32 })) = 0xD7BA7E35#32 := by
  decide +kernel

/-- A block with R_MAX = 20, SURV_MAX = 1, P = 1 and Q = 3 (10_state.md R23, R25, 40_cipher.md R115, by hand): PARAMS, ROUNDS
at 20 and at 21, and the first slots beyond each array, which are reserved. -/
theorem test_keyset_small_block :
    regValue .params (State.resetWith smallest) = 0x00010014#32 ∧
    (after (exec .keyset { State.resetWith smallest with rounds := 20#32 })).status.errcode = 0x0#4 ∧
    (after (exec .keyset { State.resetWith smallest with rounds := 21#32 })).status.errcode = 0x3#4 ∧
    initWords smallest.qMagic 3 smallest.pMagic = [1#32, 4#32, 7#32] ∧
    regAt smallest 0x204 = some (.survPaired 0) ∧ regAt smallest 0x208 = none ∧
    regAt smallest 0x8A4 = some (.subkey 41) ∧ regAt smallest 0x8A8 = none := by decide +kernel

/-- Vector E-2; and E-5: not keyed, STATUS 0x00000206. -/
theorem test_encrypt_command :
    (after (exec .encrypt { keyed with din := ⟨0xDEADBEEF#32, 0xCAFEBABE#32⟩ })).dout =
      ⟨0xF3EEFD8B#32, 0xAEA534A7#32⟩ ∧
    (after (exec .encrypt { keyed with din := ⟨0x80000000#32, 0x00000001#32⟩, rounds := 12#32 })).dout =
      ⟨0x74FF77A9#32, 0x6BDD9041#32⟩ ∧
    statusWord (after (exec .encrypt State.reset)) = 0x00000206#32 := by decide +kernel

theorem test_decrypt_command :
    (after (exec .decrypt { keyed with din := ⟨0#32, 0#32⟩ })).dout = ⟨0x6A24B45B#32, 0xB5901BAC#32⟩ ∧
    (after (exec .decrypt { keyed with din := ⟨0xB71C967E#32, 0x4924FA4D#32⟩ })).dout = ⟨0#32, 0#32⟩ ∧
    statusWord (after (exec .decrypt State.reset)) = 0x00000206#32 := by decide +kernel

/-! ### Search unit -/

/-- Vector S-1: the candidates at the true and at the spurious value; S-5: Cand1 of pair 1 at 0 and at 15. -/
theorem test_candidates :
    bmid pairTwo 0xD7BA7E35#32 = 0x94D78841#32 ∧ cand1 pairOne 0xD7BA7E35#32 = 0x72B5661F#32 ∧
    cand1 pairTwo 0xD7BA7E35#32 = 0x72B5661F#32 ∧ cand2 pairOne 0xD7BA7E35#32 0x7939B522#32 = 0x0970A4A7#32 ∧
    cand1 pairOne 0x0F7DDBC5#32 = 0x5180EC5E#32 ∧ cand1 pairTwo 0x0F7DDBC5#32 = 0x5180EC5E#32 ∧
    cand1 pairThree 0x0F7DDBC5#32 = 0x53C6D45E#32 ∧
    cand1 pairOne 0#32 = 0x938F7F4B#32 ∧ cand1 pairOne 15#32 = 0x938F7E87#32 := by decide

/-- The loop of Sweep over the words 0 to 7 with room for two (41_search.md R139, by hand): five hits, two kept. -/
theorem test_search1_sweep_part :
    sweepBelow 2 (fun k => k) (fun k => if k.toNat < 3 then 9#32 else k) 8 =
      { count := 5, list := [⟨3#32, 3#32⟩, ⟨4#32, 4#32⟩] } := by decide

/-- Vector S-6: the one wrong survivor of inconsistent pairs; S-7: the one of a wrong RES_S3. -/
theorem test_search2_hit :
    cand1 pairOne 0xAEFDA401#32 = 0xDF81CF4C#32 ∧
    cand1 ⟨pairTwo.p, ⟨0xA0FAEDD4#32, 0x7AA7B992#32⟩⟩ 0xAEFDA401#32 = 0xDF81CF4C#32 ∧
    cand2 pairOne 0x0F7DDBC5#32 0x07D44960#32 = 0xECA1D824#32 ∧
    cand2 pairTwo 0x0F7DDBC5#32 0x07D44960#32 = 0xECA1D824#32 := by decide

/-- Vector S-3, row FILTER1. -/
theorem test_filter1_resolves :
    let t := after (exec .filter1 phaseOne)
    t.survCount = 1#32 ∧ validSurvivors t = [⟨0xD7BA7E35#32, 0x72B5661F#32⟩] ∧
    t.res = ⟨0#32, 0x72B5661F#32, 0#32, 0xD7BA7E35#32⟩ ∧ statusWord t = 0x00001012#32 := by decide +kernel

/-- Vector S-10: pair 3 equal to pair 1 is ambiguous, STATUS 0x00001506; S-11: after reset, E_SEQUENCE. -/
theorem test_filter1_ambiguous :
    let t := after (exec .filter1 { phaseOne with pair3 := pairOne })
    t.survCount = 2#32 ∧ validSurvivors t = validSurvivors phaseOne ∧ t.res = State.reset.res ∧
    statusWord t = 0x00001506#32 ∧ statusWord (after (exec .filter1 State.reset)) = 0x00000706#32 := by
  decide +kernel

/-- Vector S-3, row FILTER2; S-11: FILTER2 after a SEARCH1 is E_SEQUENCE. -/
theorem test_filter2_resolves :
    let t := after (exec .filter2 phaseTwo)
    t.survCount = 1#32 ∧ t.res = phaseTwo.res ∧ statusWord t = 0x00002012#32 ∧
    (after (exec .filter2 phaseOne)).status.errcode = 0x7#4 := by decide +kernel

/-! ### Control -/

/-- 42_control.md R160 (NOP keeps OVERRUN) on STATUS 0x0000044C, which is what 10_state.md R30 makes of KEYED, OVERRUN and
ERRCODE 4 (log 17). -/
theorem test_nop :
    let s := { State.reset with
      status := { State.reset.status with keyed := true, overrun := true, errcode := 0x4#4 } }
    statusWord s = 0x0000044C#32 ∧ statusWord (after (exec .nop s)) = 0x0000004A#32 := by decide

/-- Vector X-2. -/
theorem test_clear :
    let t := after (exec .clear phaseOne)
    t.survCount = 0#32 ∧ regValue (.survCand 0) t = 0#32 ∧ statusWord t = 0x00000002#32 ∧
    t.pair1 = phaseOne.pair1 ∧ (after (exec .filter1 t)).status.errcode = 0x7#4 := by decide +kernel

/-- Vector X-3: an illegal word from reset ends with STATUS 0x00000106. -/
theorem test_illegal : statusWord (after (step (State.reset.withFetchWord 32 0x00000004))) = 0x00000106#32 := by
  decide

/-! ### Host -/

/-- Vector X-5: a dropped write, the W1C word 0x42, the interrupt level. -/
theorem test_overrun_and_irq :
    (after (step (busyHost (.write 0x030 4 7#32)))).status.overrun = true ∧
    (after (step (busyHost (.write 0x030 4 7#32)))).din = ⟨0#32, 0#32⟩ ∧
    statusWord (writeStatus 0x00000042#32
      { State.reset with status := { State.reset.status with done := true, overrun := true } }) = 0#32 ∧
    statusWord { State.reset with
      doneIe := true, status := { State.reset.status with done := true, keyed := true } } = 0x0000008A#32 := by
  decide

/-- Vector X-5: ID, PARAMS, CMD and a reserved offset. -/
theorem test_reads :
    (after (step (host (.read 0x000 4)))).env.lastRead = some 0x52433501#32 ∧
    (after (step (host (.read 0x004 4)))).env.lastRead = some 0x001000FF#32 ∧
    (after (step (host (.read 0x008 4)))).env.lastRead = some 0#32 ∧
    (after (step (host (.read 0x01C 4)))).env.lastRead = some 0#32 := by decide

/-- 20_memory.md R61, R63 and 30_encoding.md R89. -/
theorem test_host_faults :
    faultOf (step (host (.read 0x002 4))) = some (.unsupportedAccess 0x002 4) ∧
    faultOf (step (host (.write 0x030 1 0#32))) = some (.unsupportedAccess 0x030 1) ∧
    faultOf (step (host (.read 0x1000 4))) = some (.outsideWindow 0x1000) ∧
    faultOf (step (host (.check 0x000 0xFF#32 2#32))) = some (.hostCheckFailed 0x000 0x52433501#32 2#32) := by
  decide

/-- Statements 5, 6 and 8 of program L3-1 and statement 27 of L3-2, as the bus operations their tables give. -/
theorem test_expansions :
    expandStmt (.issue .keyset) = [.write 0x008 4 1#32, .waitIdle] ∧
    expandStmt (.check 0x5#4) = [.check 0x00C 0xF00#32 0x500#32] ∧
    expandStmt (.ldblk 1#32 2#32) = [.write 0x030 4 1#32, .write 0x034 4 2#32] ∧
    expandStmt (.ldpair .three 0x01234567#32 0x89ABCDEF#32 0x30B9F2DE#32 0x0AF0AFE9#32) =
      [.write 0x060 4 0x01234567#32, .write 0x064 4 0x89ABCDEF#32, .write 0x068 4 0x30B9F2DE#32,
       .write 0x06C 4 0x0AF0AFE9#32] ∧
    expandStmt (.ldkey 1#32 2#32 3#32 4#32) =
      [.write 0x020 4 1#32, .write 0x024 4 2#32, .write 0x028 4 3#32, .write 0x02C 4 4#32] := by decide

/-! ### The one-survivor example, by proof (no sweep is evaluated) -/

theorem xor31 (n : Nat) : n ^^^ 31 = 32 * (n / 32) + (31 - n % 32) := by
  have hd : (n ^^^ 31) / 32 = n / 32 := by
    have := Nat.xor_div_two_pow (a := n) (b := 31) (n := 5)
    simpa using this
  have hm : (n ^^^ 31) % 32 = 31 - n % 32 := by
    have h := Nat.xor_mod_two_pow (a := n) (b := 31) (n := 5)
    have e : ∀ r, r < 32 → r ^^^ 31 = 31 - r := by decide
    rw [show (2:Nat)^5 = 32 from rfl] at h
    rw [h, show 31 % 32 = 31 from rfl]
    exact e _ (Nat.mod_lt _ (by decide))
  omega

theorem rotr31 (u : Word) : (rotr u 31#32).toNat = u.toNat / 2^31 + (2 * u.toNat) % 2^32 := by
  have h : rotr u 31#32 = (u >>> 31) ||| (u <<< 1) := by
    unfold rotr; rfl
  rw [h, ← BitVec.add_eq_or_of_and_eq_zero, BitVec.toNat_add, BitVec.toNat_ushiftRight, BitVec.toNat_shiftLeft, Nat.shiftRight_eq_div_pow, Nat.shiftLeft_eq]
  · have := u.isLt
    rw [Nat.mod_eq_of_lt] <;> omega
  · apply BitVec.eq_of_getLsbD_eq
    intro i hi
    simp only [BitVec.getLsbD_and, BitVec.getLsbD_ushiftRight, BitVec.getLsbD_shiftLeft, BitVec.getLsbD_zero]
    rcases Nat.eq_zero_or_pos i with rfl | h
    · simp
    · rw [BitVec.getLsbD_of_ge u (31 + i) (by omega)]; simp

/-- The candidates of `uniqueOne` and of `uniqueTwo` agree at 0 only. -/
theorem one_hit (k : Word) : 31#32 - k = rotr (0#32 - k) 31#32 ^^^ 31#32 ↔ k = 0#32 := by
  constructor
  · intro h
    have h := congrArg BitVec.toNat h
    rw [BitVec.toNat_xor, rotr31, show (31#32).toNat = 31 from rfl, xor31, BitVec.toNat_sub, BitVec.toNat_sub] at h
    have hk := k.isLt
    by_contra hne
    have h0 : 0 < k.toNat := Nat.pos_of_ne_zero fun h0 => hne (BitVec.eq_of_toNat_eq h0)
    have core : ∀ u m r : Nat, u < 2 ^ 32 → 0 < u → m = u / 2 ^ 31 → r = (m + 2 * u % 2 ^ 32) % 32 →
        (u + 31) % 2 ^ 32 ≠ 32 * ((m + 2 * u % 2 ^ 32) / 32) + (31 - r) := by
      intro u m r hu hp hm hr
      have : m = 0 ∨ m = 1 := by omega
      rcases this with rfl | rfl <;> omega
    refine core (2 ^ 32 - k.toNat) _ _ (by omega) (by omega) rfl rfl ?_
    rw [show (0#32).toNat = 0 from rfl, Nat.add_zero, Nat.mod_eq_of_lt (by omega : 2 ^ 32 - k.toNat < 2 ^ 32),
      show (31#32).toNat = 31 from rfl] at h
    exact h
  · rintro rfl; decide

theorem uniqueOne_hit (k : Word) : cand1 uniqueOne.pair1 k = cand1 uniqueOne.pair2 k ↔ k = 0#32 := by
  rw [← one_hit]
  simp [uniqueOne, cand1, bmid, rotr, rotAmount]

theorem uniqueTwo_hit (k : Word) :
    cand2 uniqueTwo.pair1 uniqueTwo.res.s3 k = cand2 uniqueTwo.pair2 uniqueTwo.res.s3 k ↔ k = 0#32 := by
  have e1 : bmid uniqueTwo.pair1 uniqueTwo.res.s3 = 0#32 := by decide
  have e2 : bmid uniqueTwo.pair2 uniqueTwo.res.s3 = 31#32 := by decide
  rw [← one_hit]
  simp only [cand2, e1, e2]
  simp [uniqueTwo, rotr, rotAmount]

theorem uniqueOne_search : exec .search1 uniqueOne =
    .next (complete (commit .one ⟨1, [⟨0#32, 31#32⟩]⟩ true uniqueOne)) := by
  rw [exec, execSearch1, searchCommand, sweep_of_unique uniqueOne_hit (by decide)]
  rfl

theorem uniqueTwo_search : exec .search2 uniqueTwo =
    .next (complete (commit .two ⟨1, [⟨0#32, 31#32⟩]⟩ true uniqueTwo)) := by
  rw [exec, execSearch2, searchCommand, sweep_of_unique uniqueTwo_hit (by decide)]
  rfl

/-! ### Witnesses, one for each statement with hypotheses -/

theorem witness_DecodeTotalByCases :
    (0x00000100#32).extractLsb' 8 24 ≠ 0#24 ∧ (0xFFFFFFFF#32).extractLsb' 8 24 ≠ 0#24 ∧
    (∀ op ∈ [0x00#8, 0x01#8, 0x02#8, 0x03#8, 0x10#8, 0x11#8, 0x12#8, 0x13#8, 0x20#8, 0x04#8, 0xFF#8],
      (BitVec.setWidth 32 op).extractLsb' 8 24 = 0#24 ∧ (BitVec.setWidth 32 op).extractLsb' 0 8 = op) ∧
    0x04#8 ∉ [0x00#8, 0x01#8, 0x02#8, 0x03#8, 0x10#8, 0x11#8, 0x12#8, 0x13#8, 0x20#8] := by decide

theorem witness_StepPerformsPendingCommand :
    EngineNext (placeCommand 0x00000020#32 State.reset) 0x00000020#32 ∧
    decode 0x00000020#32 = .ok .clear ∧ Instr.wf .clear = true := ⟨⟨rfl, rfl⟩, rfl, rfl⟩

/-- The ends of the three illegal ranges of OP, and a word with a reserved bit. -/
theorem witness_IllegalWordReportsIllegalOnly :
    (0x00000100#32).extractLsb' 8 24 ≠ 0#24 ∧
    ([0x04#32, 0x0F#32, 0x14#32, 0x1F#32, 0x21#32, 0xFF#32].map fun v => (v.extractLsb' 0 8).toNat) =
      [0x04, 0x0F, 0x14, 0x1F, 0x21, 0xFF] ∧
    State.reset.pend = none ∧ EngineNext (placeCommand 0x000000FF#32 State.reset) 0x000000FF#32 :=
  ⟨by decide, by decide, rfl, rfl, rfl⟩

theorem step_search1 : step (placeCommand 0x00000010#32 State.reset) =
    .next (searchCommand .one (cand1 State.reset.pair1) (cand1 State.reset.pair2)
      (placeCommand 0x00000010#32 State.reset)) := rfl

theorem step_search2 : step (placeCommand 0x00000012#32 State.reset) =
    .next (searchCommand .two (cand2 State.reset.pair1 State.reset.res.s3)
      (cand2 State.reset.pair2 State.reset.res.s3) (placeCommand 0x00000012#32 State.reset)) := rfl

theorem witness_ClearResetsSearchState :
    State.reset.status.sphase = 0#2 ∧
    (∃ t, step (placeCommand 0x00000010#32 State.reset) = .next t ∧ t.status.sphase ≠ 0#2) ∧
    (∃ t, step (placeCommand 0x00000012#32 State.reset) = .next t ∧ t.status.sphase ≠ 0#2) :=
  ⟨rfl, ⟨_, step_search1, by rw [searchCommand_sphase]; decide⟩, ⟨_, step_search2, by rw [searchCommand_sphase]; decide⟩⟩

theorem witness_EveryCommandWordCompletes :
    State.reset.pend = none ∧ EngineNext (placeCommand 0x00000101#32 State.reset) 0x00000101#32 ∧
    (0x00C : Nat) ≠ 0x008 ∧ (busyHost (.write 0x008 4 1#32)).pend ≠ none := ⟨rfl, ⟨rfl, rfl⟩, by decide, by decide⟩

theorem witness_OneCodeInCheckOrder : ∀ i, decode 0x00000004#32 ≠ .ok i := by
  intro i h
  cases h

theorem witness_CommandFrames (i : Instr) : ∃ t, exec i State.reset = .next t := exec_next i State.reset

theorem witness_RotationsByLowFiveBits : (0 : Nat) < 32 ∧ (31 : Nat) < 32 := by decide

/-- R = 0: iterations 0 and 11 of 12, words 0 and 1 of 2. -/
theorem witness_KeyScheduleIsTwoRecurrences :
    0 < 3 * max (2 * (0 + 1)) 4 ∧ 11 < 3 * max (2 * (0 + 1)) 4 ∧ 1 < 2 * (0 + 1) := by decide

/-- Round 1 of 1, and rounds 1 and 255 of 255. -/
theorem witness_EncryptByAscendingRounds : 1 ≤ 1 ∧ 1 ≤ 255 ∧ 255 ≤ 255 := by decide

theorem witness_DecryptByDescendingRounds : 1 ≤ 1 ∧ 1 ≤ 255 ∧ 255 ≤ 255 := by decide

/-- ROUNDS at 0, 255 and 256; key zero with ROUNDS = 1. -/
theorem witness_KeysetLoadsExpansion :
    State.reset.rounds.toNat ≤ State.reset.params.rMax ∧ (255#32).toNat ≤ State.reset.params.rMax ∧
    State.reset.params.rMax < (256#32).toNat ∧ State.reset.params = Config.defaults ∧
    { State.reset with rounds := 1#32 }.key = ⟨0#32, 0#32, 0#32, 0#32⟩ ∧
    { State.reset with rounds := 1#32 }.rounds = 1#32 := by decide

theorem witness_KeysetRefusesLargeRounds :
    keyed.params.rMax < { keyed with rounds := 256#32 }.rounds.toNat ∧
    keyed.params.rMax < { keyed with rounds := 0xFFFFFFFF#32 }.rounds.toNat ∧
    smallest.rMax < { State.resetWith smallest with rounds := 21#32 }.rounds.toNat := by decide +kernel

/-- Two states of different keying, the same key words and ROUNDS; the five registers a host may write. -/
theorem witness_RekeyForgetsOldKeying :
    keyed.params = State.reset.params ∧
    { keyed with rounds := 255#32 }.key = { State.reset with rounds := 255#32 }.key ∧
    { keyed with rounds := 255#32 }.rounds = { State.reset with rounds := 255#32 }.rounds ∧
    { keyed with rounds := 255#32 }.rounds.toNat ≤ keyed.params.rMax ∧
    Reg.key3 ∈ [Reg.key0, .key1, .key2, .key3, .rounds] := by decide +kernel

/-- T_ACT = 4: word 4 and word 511 are beyond; a RAM that differs from there on. -/
theorem witness_SubkeyWordsBeyondKeyingUnread :
    keyed.rounds.toNat ≤ keyed.params.rMax ∧ 2 * (keyed.rounds.toNat + 1) ≤ 4 ∧ tAct keyed ≤ 4 ∧ tAct keyed ≤ 511 ∧
    (∀ m, m < tAct keyed → (keyed.subkeyRam.take 4 ++ [7#32]).getD m 0#32 = subkeyWord keyed m) ∧
    ∃ t, exec .encrypt keyed = .next t := by
  have hk : keyed.rounds.toNat ≤ keyed.params.rMax ∧ 2 * (keyed.rounds.toNat + 1) ≤ 4 ∧ tAct keyed ≤ 4 ∧
      tAct keyed ≤ 511 ∧
      ∀ m, m < tAct keyed → (keyed.subkeyRam.take 4 ++ [7#32]).getD m 0#32 = subkeyWord keyed m := by
    decide +kernel
  exact ⟨hk.1, hk.2.1, hk.2.2.1, hk.2.2.2.1, hk.2.2.2.2, exec_next _ _⟩

theorem witness_EncryptWritesDout :
    keyed.status.keyed = true ∧ State.reset.status.keyed = false ∧ keyed.rAct = 1 ∧
    subkeyWord keyed 0 = 0x0970A4A7#32 ∧ subkeyWord keyed 1 = 0x72B5661F#32 ∧
    subkeyWord keyed 2 = 0x7939B522#32 ∧ subkeyWord keyed 3 = 0xD7BA7E35#32 ∧ keyed.din = ⟨0#32, 0#32⟩ ∧
    ∃ t u, exec .encrypt keyed = .next t ∧ exec .encrypt t = .next u :=
  ⟨by decide +kernel, rfl, by decide +kernel, by decide +kernel, by decide +kernel, by decide +kernel,
    by decide +kernel, by decide +kernel, _, _, rfl, rfl⟩

theorem witness_DecryptWritesDout :
    keyed.status.keyed = true ∧ State.reset.status.keyed = false ∧ keyed.rAct = 1 ∧
    subkeyWord keyed 0 = 0x0970A4A7#32 ∧ subkeyWord keyed 1 = 0x72B5661F#32 ∧
    subkeyWord keyed 2 = 0x7939B522#32 ∧ subkeyWord keyed 3 = 0xD7BA7E35#32 ∧ keyed.din = ⟨0#32, 0#32⟩ ∧
    { keyed with din := ⟨0xB71C967E#32, 0x4924FA4D#32⟩ }.din = ⟨0xB71C967E#32, 0x4924FA4D#32⟩ := by
  decide +kernel

theorem witness_UnkeyedCipherRefused :
    Instr.decrypt ∈ [Instr.encrypt, Instr.decrypt] ∧ State.reset.status.keyed = false := by decide

theorem witness_DecryptCommandUndoesEncrypt : keyed.status.keyed = true := by decide +kernel

/-- The three pairs of vector S-1 are of one keying (41_search.md R133). -/
theorem witness_CandidatesRecoverSubkeys :
    PairOf 0x0970A4A7#32 0x72B5661F#32 0x7939B522#32 0xD7BA7E35#32 pairOne ∧
    PairOf 0x0970A4A7#32 0x72B5661F#32 0x7939B522#32 0xD7BA7E35#32 pairTwo ∧
    PairOf 0x0970A4A7#32 0x72B5661F#32 0x7939B522#32 0xD7BA7E35#32 pairThree :=
  ⟨by unfold PairOf; decide, by unfold PairOf; decide, by unfold PairOf; decide⟩

/-- The search clause on `uniqueOne`, which resolves; the filter clause on vector S-3, which resolves too. -/
theorem witness_TrueS3SurvivesPhase1 :
    uniqueOne.params.Legal ∧ phaseOne.params.Legal ∧ PairOf 0#32 31#32 0#32 0#32 uniqueOne.pair1 ∧ PairOf 0#32 31#32 0#32 0#32 uniqueOne.pair2 ∧
    (∃ t, exec .search1 uniqueOne = .next t ∧ t.status.sovf = false ∧ t.status.resolved = true) ∧
    PairOf 0x0970A4A7#32 0x72B5661F#32 0x7939B522#32 0xD7BA7E35#32 phaseOne.pair1 ∧
    PairOf 0x0970A4A7#32 0x72B5661F#32 0x7939B522#32 0xD7BA7E35#32 phaseOne.pair3 ∧
    phaseOne.status.sphase = 1#2 ∧ phaseOne.status.sovf = false ∧
    (∃ e ∈ validSurvivors phaseOne, e.cand = 0xD7BA7E35#32) ∧
    ∃ t, exec .filter1 phaseOne = .next t ∧ t.status.resolved = true :=
  ⟨defaults_legal, defaults_legal, by unfold PairOf; decide, by unfold PairOf; decide, ⟨_, uniqueOne_search, rfl, rfl⟩,
    witness_CandidatesRecoverSubkeys.1, witness_CandidatesRecoverSubkeys.2.2, rfl, rfl, by decide +kernel,
    _, rfl, by decide +kernel⟩

theorem witness_TrueS2SurvivesPhase2 :
    uniqueTwo.params.Legal ∧ phaseTwo.params.Legal ∧ PairOf 31#32 0#32 0#32 0#32 uniqueTwo.pair1 ∧ PairOf 31#32 0#32 0#32 0#32 uniqueTwo.pair2 ∧
    uniqueTwo.res.s3 = 0#32 ∧
    (∃ t, exec .search2 uniqueTwo = .next t ∧ t.status.sovf = false ∧ t.status.resolved = true) ∧
    PairOf 0x0970A4A7#32 0x72B5661F#32 0x7939B522#32 0xD7BA7E35#32 phaseTwo.pair1 ∧
    PairOf 0x0970A4A7#32 0x72B5661F#32 0x7939B522#32 0xD7BA7E35#32 phaseTwo.pair3 ∧
    phaseTwo.res.s3 = 0xD7BA7E35#32 ∧ phaseTwo.status.sphase = 2#2 ∧ phaseTwo.status.sovf = false ∧
    (∃ e ∈ validSurvivors phaseTwo, e.cand = 0x7939B522#32) ∧
    ∃ t, exec .filter2 phaseTwo = .next t ∧ t.status.resolved = true :=
  ⟨defaults_legal, defaults_legal, by unfold PairOf; decide, by unfold PairOf; decide, rfl, ⟨_, uniqueTwo_search, rfl, rfl⟩,
    witness_CandidatesRecoverSubkeys.1, witness_CandidatesRecoverSubkeys.2.2, rfl, rfl, rfl, by decide +kernel,
    _, rfl, by decide +kernel⟩

theorem witness_SweepCountsAllWords :
    (∀ k : Word, id k = id k) ∧ ∀ k : Word, (fun _ => 0#32) k ≠ (fun _ => 1#32) k :=
  ⟨fun _ => rfl, fun _ => (by decide : 0#32 ≠ 1#32)⟩

theorem witness_RefilterKeepsAgreeingCandidates :
    (∀ e ∈ validSurvivors phaseOne, e.paired = cand1 pairOne e.cand) ∧
    ((validSurvivors phaseOne).map Survivor.cand).Nodup := by decide +kernel

/-- The least and the default parameters. -/
theorem witness_SearchCommitsSweep : State.reset.params.Legal ∧ (State.resetWith smallest).params.Legal :=
  ⟨defaults_legal, smallest_legal⟩

theorem witness_FilterCommitsRefilter :
    phaseOne.status.sphase = 1#2 ∧ phaseOne.status.sovf = false ∧
    phaseTwo.status.sphase = 2#2 ∧ phaseTwo.status.sovf = false := ⟨rfl, rfl, rfl, rfl⟩

/-- After reset pairs 1 and 2 are equal, so every word agrees. -/
theorem witness_OverflowKeepsSmallest :
    State.reset.params.Legal ∧
    State.reset.params.survMax < (agreeing (cand1 State.reset.pair1) (cand1 State.reset.pair2)).length ∧
    State.reset.params.survMax < (agreeing (cand2 State.reset.pair1 State.reset.res.s3)
      (cand2 State.reset.pair2 State.reset.res.s3)).length := by
  have h : State.reset.params.survMax < wordSpace := by
    rw [wordSpace, show State.reset.params.survMax = 16 from rfl]; norm_num
  have e1 := agreeing_length_of_forall
    (f1 := cand1 State.reset.pair1) (f2 := cand1 State.reset.pair2) (fun _ => rfl)
  have e2 := agreeing_length_of_forall (f1 := cand2 State.reset.pair1 State.reset.res.s3)
    (f2 := cand2 State.reset.pair2 State.reset.res.s3) (fun _ => rfl)
  rw [e1, e2]
  exact ⟨defaults_legal, h, h⟩

theorem witness_FilterPreconditionsInOrder :
    (Instr.filter1, 1#2) ∈ [(Instr.filter1, 1#2), (Instr.filter2, 2#2)] ∧
    (Instr.filter2, 2#2) ∈ [(Instr.filter1, 1#2), (Instr.filter2, 2#2)] ∧
    State.reset.status.sphase ≠ 1#2 ∧ State.reset.status.sphase ≠ 2#2 ∧ phaseOne.status.sphase ≠ 2#2 ∧
    { phaseOne with status := { phaseOne.status with sovf := true } }.status.sphase = 1#2 ∧
    { phaseOne with survCount := 0#32 }.status.sovf = false ∧
    { phaseOne with survCount := 0#32 }.survCount = 0#32 := by decide

theorem witness_ResultsWrittenOnlyWhenUnique :
    (phaseOne.params.Legal ∧ phaseTwo.params.Legal ∧ uniqueOne.params.Legal ∧ uniqueTwo.params.Legal) ∧
    (∃ t, exec .filter1 phaseOne = .next t ∧ t.res ≠ phaseOne.res ∧ t.status.errcode = 0x0#4 ∧
      t.survCount = 1#32) ∧
    (∃ t, exec .filter2 { phaseTwo with res := { phaseTwo.res with s0 := 0#32 } } = .next t ∧
      t.res ≠ { phaseTwo.res with s0 := 0#32 } ∧ t.status.errcode = 0x0#4 ∧ t.survCount = 1#32) ∧
    (∃ t, exec .search1 uniqueOne = .next t ∧ t.res ≠ uniqueOne.res ∧ t.status.errcode = 0x0#4 ∧
      t.survCount = 1#32) ∧
    (∃ t, exec .search2 uniqueTwo = .next t ∧ t.res ≠ uniqueTwo.res ∧ t.status.errcode = 0x0#4 ∧
      t.survCount = 1#32) :=
  ⟨⟨defaults_legal, defaults_legal, defaults_legal, defaults_legal⟩,
    ⟨_, rfl, by decide +kernel, by decide +kernel, by decide +kernel⟩,
    ⟨_, rfl, by decide +kernel, by decide +kernel, by decide +kernel⟩,
    ⟨_, uniqueOne_search, by decide, rfl, rfl⟩, ⟨_, uniqueTwo_search, by decide, rfl, rfl⟩⟩

theorem witness_EqualPairsOverflow :
    State.reset.params.Legal ∧ (State.resetWith smallest).params.Legal ∧ State.reset.pair1 = State.reset.pair2 ∧
    (State.resetWith smallest).pair1 = (State.resetWith smallest).pair2 :=
  ⟨defaults_legal, smallest_legal, rfl, rfl⟩

theorem witness_SearchIgnoresKeying :
    Instr.filter2 ∈ [Instr.search1, .filter1, .search2, .filter2] ∧ ∃ t, exec .search1 phaseOne = .next t :=
  ⟨by decide, exec_next _ _⟩

theorem witness_InconclusiveLeavesResults :
    hopeless.params.Legal ∧
    agreeing (cand1 hopeless.pair1) (cand1 hopeless.pair2) = [] ∧
    agreeing (cand2 hopeless.pair1 hopeless.res.s3) (cand2 hopeless.pair2 hopeless.res.s3) = [] ∧
    (let s := { phaseOne with pair3 := ⟨⟨0#32, 1#32⟩, pairOne.c⟩ }
     s.status.sphase = 1#2 ∧ s.status.sovf = false ∧
     ∀ e ∈ validSurvivors s, cand1 s.pair1 e.cand ≠ cand1 s.pair3 e.cand) ∧
    (let s := { phaseTwo with pair3 := ⟨⟨1#32, 0#32⟩, pairOne.c⟩ }
     s.status.sphase = 2#2 ∧ s.status.sovf = false ∧
     ∀ e ∈ validSurvivors s, cand2 s.pair1 s.res.s3 e.cand ≠ cand2 s.pair3 s.res.s3 e.cand) := by
  have one : ∀ x : Word, x ≠ x - 1#32 := by intro x h; bv_omega
  refine ⟨defaults_legal, agreeing_eq_nil fun k h => ?_, agreeing_eq_nil fun k h => ?_, by decide +kernel, by decide +kernel⟩
  · have e : cand1 hopeless.pair2 k = cand1 hopeless.pair1 k - 1#32 := by simp [cand1, bmid, hopeless, State.reset, State.resetWith]
    exact one _ (h.trans e)
  · have e : cand2 hopeless.pair2 hopeless.res.s3 k = cand2 hopeless.pair1 hopeless.res.s3 k - 1#32 := by
      simp [cand2, bmid, hopeless, State.reset, State.resetWith]
    exact one _ (h.trans e)

theorem witness_AmbiguousKeepsSurvivors :
    (let s := { phaseOne with pair3 := pairOne }
     s.status.sphase = 1#2 ∧ s.status.sovf = false ∧
     2 ≤ ((validSurvivors s).filter fun e => decide (cand1 s.pair1 e.cand = cand1 s.pair3 e.cand)).length) ∧
    (let s := { phaseTwo with pair3 := pairOne, survCount := 2#32 }
     s.status.sphase = 2#2 ∧ s.status.sovf = false ∧
     2 ≤ ((validSurvivors s).filter fun e =>
       decide (cand2 s.pair1 s.res.s3 e.cand = cand2 s.pair3 s.res.s3 e.cand)).length) := by decide +kernel

/-- The last survivor slot and the last subkey word of the default and of the smallest block, and their offsets. -/
theorem witness_RegisterMapRoundTrip :
    Config.defaults.Legal ∧ smallest.Legal ∧
    (Reg.wf (.survPaired 15) = true ∧ 15 < Config.defaults.survMax ∧ Reg.wf (.subkey 511) = true ∧
      511 < Config.defaults.tMax ∧ 0 < smallest.survMax ∧ 41 < smallest.tMax) ∧
    regAt Config.defaults 0x27C = some (.survPaired 15) ∧ regAt Config.defaults 0xFFC = some (.subkey 511) ∧
    regAt smallest 0x200 = some (.survCand 0) ∧ regAt smallest 0x07C = some .resS3 :=
  ⟨defaults_legal, smallest_legal, by decide, by decide, by decide, by decide, by decide⟩

/-- Idle at every kind of offset and busy at a RW, a CMD and a reserved one. -/
theorem witness_HostWriteRules :
    (∀ addr ∈ [0x008, 0x00C, 0x010, 0x014, 0x07C, 0x000, 0x038, 0x01C, 0x280, 0xFFC], addr % 4 = 0 ∧ addr < 0x1000) ∧
    (∀ addr, HostNext (host (.write addr 4 3#32)) (.write addr 4 3#32) ∧
      (host (.write addr 4 3#32)).pend = none ∧
      HostNext (busyHost (.write addr 4 3#32)) (.write addr 4 3#32) ∧
      (busyHost (.write addr 4 3#32)).pend ≠ none) ∧
    Reg.rounds ∈ rwRegs ∧ regOffset .rounds = 0x014 ∧ Reg.resS3 ∈ rwRegs ∧ regOffset .resS3 = 0x07C ∧
    (∀ addr ∈ [0x000, 0x038, 0x01C, 0x280, 0xFFC],
      addr ∉ [0x008, 0x00C, 0x010] ∧ addr ∉ rwRegs.map regOffset) :=
  ⟨by decide, fun _ => ⟨⟨rfl, rfl⟩, rfl, ⟨rfl, rfl⟩, nofun⟩, by decide, rfl, by decide, rfl, by decide⟩

/-- A reserved offset, an idle read of a VOLATILE register, a busy read of one that is not. -/
theorem witness_HostReadRules :
    (∀ addr, HostNext (host (.read addr 4)) (.read addr 4) ∧ (host (.read addr 4)).pend = none ∧
      HostNext (busyHost (.read addr 4)) (.read addr 4)) ∧
    0xFFC % 4 = 0 ∧ 0xFFC < 0x1000 ∧ regAt Config.defaults 0x3FC = none ∧
    regAt Config.defaults 0x038 = some .doutA ∧ regAt Config.defaults 0x00C = some .status ∧
    Reg.status ∉ [Reg.doutA, .doutB, .survCount, .resS0, .resS1, .resS2, .resS3] ∧
    ∀ n, Reg.status ≠ .survCand n ∧ Reg.status ≠ .survPaired n ∧ Reg.status ≠ .subkey n :=
  ⟨fun _ => ⟨⟨rfl, rfl⟩, rfl, ⟨rfl, rfl⟩⟩, by decide, by decide, by decide, by decide, by decide, by decide,
    fun _ => ⟨nofun, nofun, nofun⟩⟩

/-- The ends of every reserved range, in the smallest block (the default one has no reserved subkey slot). -/
theorem witness_ReservedReadZeroIgnoreWrites :
    (State.resetWith smallest).params.Legal ∧ State.reset.params.Legal ∧
    (∀ addr ∈ [0x01C, 0x080, 0x1FC, 0x208, 0x3FC, 0x400, 0x7FC, 0x8A8, 0xFFC],
      addr % 4 = 0 ∧ reservedOffset smallest addr) ∧
    State.reset.pend = none ∧ Reg.doutB ∈ [Reg.id, .params, .survCount, .doutA, .doutB] ∧
    15 < State.reset.params.survMax ∧ 511 < State.reset.params.tMax ∧
    (3#32).getLsbD 0 = (1#32).getLsbD 0 ∧ (3#32).getLsbD 1 = (2#32).getLsbD 1 ∧
    (3#32).getLsbD 6 = (2#32).getLsbD 6 := by
  refine ⟨smallest_legal, defaults_legal, ?_, by decide⟩
  have slot : ∀ n, 1 ≤ n → n < 64 → ∀ a, (a = 0x200 + 8 * n ∨ a = 0x204 + 8 * n) → reservedOffset smallest a :=
    fun n h1 h2 a ha => .inr (.inr (.inr (.inl ⟨n, h1, h2, ha⟩)))
  have word : ∀ m, 42 ≤ m → m < 512 → reservedOffset smallest (0x800 + 4 * m) :=
    fun m h1 h2 => .inr (.inr (.inr (.inr ⟨m, h1, h2, rfl⟩)))
  intro addr h
  simp only [List.mem_cons, List.not_mem_nil, or_false] at h
  rcases h with rfl | rfl | rfl | rfl | rfl | rfl | rfl | rfl | rfl
  · exact ⟨rfl, .inl rfl⟩
  · exact ⟨rfl, .inr (.inl (by decide))⟩
  · exact ⟨rfl, .inr (.inl (by decide))⟩
  · exact ⟨rfl, slot 1 (by decide) (by decide) _ (by decide)⟩
  · exact ⟨rfl, slot 63 (by decide) (by decide) _ (by decide)⟩
  · exact ⟨rfl, .inr (.inr (.inl (by decide)))⟩
  · exact ⟨rfl, .inr (.inr (.inl (by decide)))⟩
  · exact ⟨rfl, word 42 (by decide) (by decide)⟩
  · exact ⟨rfl, word 511 (by decide) (by decide)⟩

theorem witness_InterruptFollowsDone :
    EngineNext (placeCommand 0x00000004#32 State.reset) 0x00000004#32 ∧ State.reset.pend = none ∧
    (2#32).getLsbD 1 = true ∧ (2#32).getLsbD 0 = false := ⟨⟨rfl, rfl⟩, rfl, by decide, by decide⟩

theorem witness_UnsupportedAccessFaultsHost :
    (0xFFF < 0x1000 ∧ (0xFFF % 4 ≠ 0 ∨ 4 ≠ 4)) ∧ (0x000 < 0x1000 ∧ (0x000 % 4 ≠ 0 ∨ 2 ≠ 4)) ∧
    ∀ addr n, HostNext (host (.read addr n)) (.read addr n) ∧
      HostNext (host (.write addr n 0#32)) (.write addr n 0#32) :=
  ⟨by decide, by decide, fun _ _ => ⟨⟨rfl, rfl⟩, ⟨rfl, rfl⟩⟩⟩

theorem witness_IdentificationIsConstant :
    State.reset.params.Legal ∧ State.reset.params = Config.defaults ∧ State.reset.pend = none ∧
    (State.resetWith smallest).params.Legal := ⟨defaults_legal, rfl, rfl, smallest_legal⟩

theorem witness_MaskedWindowReads :
    phaseOne.params.Legal ∧ phaseOne.rAct ≤ phaseOne.params.rMax ∧ phaseOne.pend = none ∧ (0 : Nat) < survSlots ∧ (63 : Nat) < survSlots ∧ (511 : Nat) < subkeySlots :=
  ⟨defaults_legal, by decide, by decide⟩

/-- A dropped write, and the three ways OVERRUN goes: W1C, CLEAR, reset. -/
theorem witness_OverrunIsSticky :
    (busyHost (.write 0x030 4 0#32)).pend ≠ none ∧
    (∀ s ∈ [host (.write 0x00C 4 0x40#32), placeCommand 0x00000020#32 State.reset, host .reset],
      let s' := { s with status := { s.status with overrun := true } }
      (∃ t, step s' = .next t) ∧ s'.status.overrun = true ∧ (after (step s')).status.overrun = false) := by
  refine ⟨nofun, fun s h => ?_⟩
  simp only [List.mem_cons, List.not_mem_nil, or_false] at h
  rcases h with rfl | rfl | rfl <;> exact ⟨⟨_, rfl⟩, rfl, rfl⟩

theorem witness_KeyedSetByKeysetClearedByReset :
    (let s := placeCommand 0x00000001#32 State.reset
     EngineNext s (encode .keyset) ∧ (∃ t, step s = .next t) ∧ (after (step s)).status.keyed ≠ s.status.keyed ∧
     (after (step s)).status.errcode = 0x0#4) ∧
    (let s := { host .reset with status := { State.reset.status with keyed := true } }
     (∃ t, step s = .next t) ∧ (after (step s)).status.keyed ≠ s.status.keyed) ∧
    State.reset.status.keyed = false :=
  ⟨⟨⟨rfl, rfl⟩, ⟨_, rfl⟩, by decide +kernel, by decide +kernel⟩, ⟨⟨_, rfl⟩, nofun⟩, rfl⟩

theorem not_reset_of_engine {s : State} {w : Word} (h : EngineNext s w) : ¬ HostNext s .reset := by
  rintro ⟨hn, -⟩
  rw [(engineReady_eq_some_iff s w).2 h] at hn
  cases hn

theorem write_not_reset : ¬ HostNext (host (.write 0x014 4 1#32)) .reset := by
  rintro ⟨-, h⟩
  cases h

/-- One step for each thing that may change: KEYSET, ENCRYPT, FILTER1, CLEAR and a host write. -/
theorem witness_WritersOfState :
    (let s := placeCommand 0x00000001#32 State.reset
     (∃ t, step s = .next t) ∧ ¬ HostNext s .reset ∧ (after (step s)).subkeyRam ≠ s.subkeyRam) ∧
    (let s := placeCommand 0x00000002#32 keyed
     (∃ t, step s = .next t) ∧ ¬ HostNext s .reset ∧ (after (step s)).dout ≠ s.dout) ∧
    (let s := placeCommand 0x00000011#32 phaseOne
     (∃ t, step s = .next t) ∧ ¬ HostNext s .reset ∧ (after (step s)).surv ≠ s.surv) ∧
    (let s := placeCommand 0x00000020#32 phaseOne
     (∃ t, step s = .next t) ∧ ¬ HostNext s .reset ∧ (after (step s)).survCount ≠ s.survCount) ∧
    (let s := host (.write 0x014 4 1#32)
     (∃ t, step s = .next t) ∧ ¬ HostNext s .reset ∧ (after (step s)).rounds ≠ s.rounds) :=
  ⟨⟨⟨_, rfl⟩, not_reset_of_engine ⟨rfl, rfl⟩, by decide +kernel⟩,
    ⟨⟨_, rfl⟩, not_reset_of_engine ⟨rfl, rfl⟩, by decide +kernel⟩,
    ⟨⟨_, rfl⟩, not_reset_of_engine ⟨rfl, rfl⟩, by decide +kernel⟩,
    ⟨⟨_, rfl⟩, not_reset_of_engine ⟨rfl, rfl⟩, by decide +kernel⟩,
    ⟨_, rfl⟩, write_not_reset, by decide⟩

theorem witness_HostStatementsRun :
    HostStmt.wf (.issue .keyset) = true ∧ HostOp.waitIdle ∈ expandStmt (.issue .keyset) ∧
    HostNext (host .waitIdle) .waitIdle ∧ (host .waitIdle).pend = none ∧
    HostNext (busyHost .waitIdle) .waitIdle ∧ (busyHost .waitIdle).pend ≠ none ∧
    (let s := host (.check (regOffset .id) 0xFF#32 1#32)
     HostNext s (.check (regOffset .id) 0xFF#32 1#32) ∧ s.pend = none ∧ Reg.wf .id = true ∧
     regAt s.params (regOffset .id) = some .id ∧
     regValue .id s &&& 0xFF#32 = 1#32) ∧
    (let s := host (.check (regOffset .id) 0xFF#32 2#32)
     HostNext s (.check (regOffset .id) 0xFF#32 2#32) ∧ regValue .id s &&& 0xFF#32 ≠ 2#32) :=
  ⟨rfl, by decide, ⟨rfl, rfl⟩, rfl, ⟨rfl, rfl⟩, nofun, ⟨⟨rfl, rfl⟩, rfl, rfl, by decide, by decide⟩,
    ⟨rfl, rfl⟩, by decide⟩

/-- Reset idle and reset while busy; a completion takes a pending command away. -/
theorem witness_ResetInputRestoresReset :
    HostNext (host .reset) .reset ∧ HostNext (busyHost .reset) .reset ∧
    (∃ t, step (busyHost .reset) = .next t ∧ (busyHost .reset).pend ≠ none ∧ t.pend ≠ (busyHost .reset).pend) ∧
    (let s := placeCommand 0#32 State.reset
     ∃ t, step s = .next t ∧ s.pend ≠ none ∧ t.pend ≠ s.pend) :=
  ⟨⟨rfl, rfl⟩, ⟨rfl, rfl⟩, ⟨_, rfl, nofun, nofun⟩, ⟨_, rfl, nofun, nofun⟩⟩

/-- A NOP pending for two host turns, in which the host writes and waits; and one whose latency is over. -/
theorem witness_PendingCommandCompletes :
    (let s := { State.reset with
       pend := some 0#32, env := { State.reset.env with hostOps := [.write 0x030 4 7#32, .waitIdle], wait := 2 } }
     s.pend = some 0#32 ∧ ∀ op ∈ s.env.hostOps.take s.env.wait,
       op.wf = true ∧ op ≠ .reset ∧ ∀ addr mask want, op ≠ .check addr mask want) ∧
    (placeCommand 0#32 State.reset).pend = some 0#32 := by
  refine ⟨⟨rfl, fun op h => ?_⟩, rfl⟩
  have h : op ∈ [HostOp.write 0x030 4 7#32, .waitIdle] := h
  simp only [List.mem_cons, List.not_mem_nil, or_false] at h
  rcases h with rfl | rfl
  · exact ⟨rfl, nofun, fun _ _ _ => nofun⟩
  · exact ⟨rfl, nofun, fun _ _ _ => nofun⟩

theorem witness_ResetStateAndFirstKeyset :
    smallest.Legal ∧ Reg.status ≠ .id ∧ Reg.status ≠ .params := ⟨smallest_legal, by decide⟩

theorem witness_ResetMeetsInvariant : Config.defaults.Legal ∧ smallest.Legal := ⟨defaults_legal, smallest_legal⟩

/-- A step of a reset and a run of two operations, on the smallest block. -/
theorem witness_ParametersNeverChange :
    (∃ t, step { State.resetWith smallest with env := (host .reset).env } = .next t) ∧
    ∃ t, core.run 2 { State.resetWith smallest with
      env := { State.reset.env with hostOps := [.write 0x014 4 1#32, .reset] } } = .next t :=
  ⟨⟨_, rfl⟩, ⟨_, rfl⟩⟩

theorem witness_StepKeepsInvariant : BlockInv State.reset ∧ ∃ t, step State.reset = .next t :=
  ⟨{ legal := defaults_legal
     storage := reset_memory_wf
     rounds := Nat.zero_le _
     errcode := by decide
     sphase := by decide
     busyClean := fun _ => ⟨rfl, rfl⟩
     sovf := by decide
     resolved := by decide
     noPhase := fun _ => rfl
     ascending := List.Pairwise.nil
     keyed := nofun
     unkeyed := fun _ => rfl }, _, rfl⟩

/-- States that differ in masked storage only, with a step that goes on and a step that faults. -/
theorem witness_MaskedStorageUnobservable :
    SameView State.reset { State.reset with surv := [], subkeyRam := [7#32] } ∧
    (∃ t, step State.reset = .next t) ∧
    SameView (host (.read 0x002 4)) { host (.read 0x002 4) with surv := [], subkeyRam := [7#32] } ∧
    step (host (.read 0x002 4)) = .fault (.unsupportedAccess 0x002 4) :=
  ⟨⟨rfl, rfl, nofun⟩, ⟨_, rfl⟩, ⟨rfl, rfl, nofun⟩, rfl⟩

end Sys2Proof.Tests
end

section
/-! SUPPORT. Runs of any machine behind the host's interface, and the induction over them: what every step keeps,
every run keeps. -/

namespace Sys2Proof.Machine

/-- A run of one step more that answers a next state took that step and then the run. -/
theorem run_succ_cases {M : Host.Core} {k : Nat} {s t : M.State} (h : M.run (k + 1) s = .next t) :
    ∃ u, M.step s = .next u ∧ M.run k u = .next t := by
  rw [Host.Core.run] at h
  split at h
  · next u hu => exact ⟨u, hu, h⟩
  · cases h
  · cases h

theorem run_keeps_of_step_keeps {M : Host.Core} {P : M.State → Prop}
    (keeps : ∀ s t, P s → M.step s = .next t → P t) {k : Nat} {s t : M.State} (hs : P s)
    (h : M.run k s = .next t) : P t := by
  induction k generalizing s with
  | zero => cases h; exact hs
  | succ k ih =>
    obtain ⟨u, hu, hrun⟩ := run_succ_cases h
    exact ih (keeps s u hs hu) hrun

end Sys2Proof.Machine
end

section
/-! PROOF. The parameters are configuration (00_scope.md R6, R18): each operation of the engine and of the host leaves
them as they were, so every step does, and every run. -/

namespace Sys2Proof.Machine

/-! ### The engine's commands -/

/-- A FILTER ends by completing, whatever is left: the committed state but for ERRCODE, DONE and PEND. -/
theorem filterEnd_eq (r : Found) (s : State) : ∃ c, filterEnd r s = finish c s := by
  unfold filterEnd
  split
  · exact ⟨_, rfl⟩
  · split <;> exact ⟨_, rfl⟩

@[simp] theorem searchEnd_params (r : Found) (s : State) : (searchEnd r s).params = s.params := by
  obtain ⟨c, h⟩ := searchEnd_eq r s
  rw [h, finish_params]

@[simp] theorem filterEnd_params (r : Found) (s : State) : (filterEnd r s).params = s.params := by
  obtain ⟨c, h⟩ := filterEnd_eq r s
  rw [h, finish_params]

@[simp] theorem cipherCommand_params (f : (Nat → Word) → Nat → Block → Block) (s : State) :
    (cipherCommand f s).params = s.params := by
  unfold cipherCommand
  split
  · rw [raiseError_eq, finish_params]
  · rw [complete_eq, finish_params]

@[simp] theorem searchCommand_params (p : Phase) (f1 f2 : Word → Word) (s : State) :
    (searchCommand p f1 f2 s).params = s.params := by
  rw [searchCommand, searchEnd_params, commit_params]

@[simp] theorem filterCommand_params (p : Phase) (g1 g3 : Word → Word) (s : State) :
    (filterCommand p g1 g3 s).params = s.params := by
  unfold filterCommand
  split
  · rw [raiseError_eq, finish_params]
  · split
    · rw [raiseError_eq, finish_params]
    · rw [filterEnd_params, commit_params]

theorem execKeyset_params {s t : State} (h : execKeyset s = .next t) : t.params = s.params := by
  cases h
  split
  · rw [raiseError_eq, finish_params]
  · rw [complete_eq, finish_params, loadKeying_params]

theorem exec_params {i : Instr} {s t : State} (h : exec i s = .next t) : t.params = s.params := by
  cases i with
  | keyset => exact execKeyset_params h
  | nop => cases h; rw [complete_eq, finish_params]
  | clear => cases h; rw [complete_eq, finish_params, clearSearch_params]
  | encrypt | decrypt => cases h; exact cipherCommand_params _ s
  | search1 | search2 => cases h; exact searchCommand_params _ _ _ s
  | filter1 | filter2 => cases h; exact filterCommand_params _ _ _ s

theorem perform_params {w : Word} {s t : State} (h : perform w s = .next t) : t.params = s.params := by
  unfold perform at h
  split at h
  · exact exec_params h
  · cases h; rw [raiseError_eq, finish_params]

/-! ### The host's operations -/

@[simp] theorem busRead_params (addr : Nat) (s : State) : (busRead addr s).params = s.params := by
  obtain ⟨d, h, -⟩ := busRead_eq addr s
  rw [h]

@[simp] theorem writeReg_params (r : Reg) (v : Word) (s : State) : (writeReg r v s).params = s.params := by
  cases r <;> rfl

@[simp] theorem busWrite_params (addr : Nat) (v : Word) (s : State) : (busWrite addr v s).params = s.params := by
  unfold busWrite
  split
  · rfl
  · split
    · exact writeReg_params _ v s
    · rfl

theorem hostOp_params {op : HostOp} {s t : State} (h : hostOp op s = .next t) : t.params = s.params := by
  obtain ⟨addr, rfl⟩ | ⟨addr, v, rfl⟩ | ⟨-, -, rfl⟩ | rfl | rfl := hostOp_cases h
  · exact busRead_params addr s
  · exact busWrite_params addr v s
  · exact busRead_params _ _
  · rfl
  · exact resetBlock_params s

/-! ### Steps and runs -/

theorem step_params {s t : State} (h : step s = .next t) : t.params = s.params := by
  obtain ⟨w, -, -, hw⟩ | ⟨-, -, rfl⟩ | ⟨op, rest, -, -, hop⟩ := step_cases h
  · exact perform_params hw
  · exact passTurn_params s
  · rw [hostOp_params hop, passTurn_params]

theorem run_params {k : Nat} {s t : State} (h : core.run k s = .next t) : t.params = s.params :=
  run_keeps_of_step_keeps (M := core) (P := fun u : State => u.params = s.params)
    (fun _ _ hu hstep => (step_params hstep).trans hu) rfl h

/-- The defaults lie in the ranges of 00_scope.md R6; stated beside the proof, which so rests on no test. -/
theorem config_defaults_legal : Config.defaults.Legal := by constructor <;> decide

/-- Settles O54: the defaults meet R6's ranges one by one, and every operation of a step keeps the parameters. -/
theorem parametersNeverChange : Obligations.ParametersNeverChange :=
  ⟨config_defaults_legal, reset_params, fun _ _ => step_params, fun _ _ _ => run_params⟩

end Sys2Proof.Machine
end

section
/-! SUPPORT. What a performed command and a step can do, said once: the effects of the nine commands, and the five kinds
of turn. Every claim over all steps is derived from these two. -/

namespace Sys2Proof.Machine

/-! ### BUSY -/

theorem busyBit_eq_false_iff (s : State) : busyBit s = false ↔ s.pend = none :=
  Option.isSome_eq_false_iff.trans Option.isNone_iff_eq_none

theorem busyBit_eq_true_iff (s : State) : busyBit s = true ↔ s.pend ≠ none :=
  Option.isSome_iff_ne_none

/-! ### Command words -/

theorem word_toNat_eq_fields (v : Word) : v.toNat = (opField v).toNat + 256 * (rsvField v).toNat := by
  simp only [opField, rsvField, BitVec.extractLsb'_toNat, Nat.shiftRight_eq_div_pow]
  omega

/-- Only a command's own word decodes to it (30_encoding.md R82, R85). -/
theorem eq_encode_of_decode {v : Word} {i : Instr} (h : decode v = .ok i) : v = encode i := by
  have fields := word_toNat_eq_fields v
  unfold decode at h
  split at h
  · cases h
  · next hr =>
    rw [not_not.1 hr] at fields
    split at h
    case h_10 => cases h
    all_goals
      next hop =>
        cases h
        rw [hop] at fields
        exact BitVec.eq_of_toNat_eq fields

theorem decode_encode (i : Instr) : decode (encode i) = .ok i := by
  cases i <;> rfl

/-! ### The two phases of the search -/

/-- SEARCHp. -/
def searchInstr : Phase → Instr
  | .one => .search1
  | .two => .search2

/-- FILTERp. -/
def filterInstr : Phase → Instr
  | .one => .filter1
  | .two => .filter2

/-- The candidate function of phase p on a pair (41_search.md R131, R132): phase 2 knows S3 from RES_S3. -/
def phaseCand (p : Phase) (s : State) (q : Pair) : Word → Word :=
  match p with
  | .one => cand1 q
  | .two => cand2 q s.res.s3

theorem exec_searchInstr (p : Phase) (s : State) : exec (searchInstr p) s =
    .next (searchCommand p (phaseCand p s s.pair1) (phaseCand p s s.pair2) s) := by
  cases p <;> rfl

theorem exec_filterInstr (p : Phase) (s : State) : exec (filterInstr p) s =
    .next (filterCommand p (phaseCand p s s.pair1) (phaseCand p s s.pair3) s) := by
  cases p <;> rfl

/-- What a sweep of phase p finds (41_search.md R135, R137). -/
def swept (p : Phase) (s : State) : Found :=
  sweep s.params.survMax (phaseCand p s s.pair1) (phaseCand p s s.pair2)

/-- What a filter of phase p leaves (R136, R138). -/
def refiltered (p : Phase) (s : State) : Found :=
  let kept := refilter (phaseCand p s s.pair1) (phaseCand p s s.pair3) (validSurvivors s)
  { count := kept.length, list := kept }

/-! ### How a command ends -/

/-- The code a SEARCH of that find ends with (R135, R137, R144). -/
def searchCode (survMax : Nat) (r : Found) : BitVec 4 :=
  if r.count = 0 then errorNumber .inconclusive
  else if survMax < r.count then errorNumber .sovf
  else 0x0#4

/-- The code a FILTER that leaves that ends with (R136, R138). -/
def filterCode (r : Found) : BitVec 4 :=
  if r.count = 0 then errorNumber .inconclusive
  else if 1 < r.count then errorNumber .ambiguous
  else 0x0#4

theorem searchEnd_eq_finish (r : Found) (s : State) : searchEnd r s = finish (searchCode s.params.survMax r) s := by
  unfold searchEnd searchCode
  split
  · rfl
  · split <;> rfl

theorem filterEnd_eq_finish (r : Found) (s : State) : filterEnd r s = finish (filterCode r) s := by
  unfold filterEnd filterCode
  split
  · rfl
  · split <;> rfl

theorem cipherCommand_of_unkeyed {s : State} (h : s.status.keyed = false)
    (f : (Nat → Word) → Nat → Block → Block) : cipherCommand f s = finish (errorNumber .notKeyed) s :=
  if_pos h

theorem cipherCommand_of_keyed {s : State} (h : s.status.keyed = true)
    (f : (Nat → Word) → Nat → Block → Block) :
    cipherCommand f s = finish 0x0#4 { s with dout := f (subkeyWord s) s.rAct s.din } :=
  if_neg (Bool.not_eq_false _ ▸ h)

theorem errorNumber_lt (e : ErrorCode) : (errorNumber e).toNat < 8 := by
  cases e <;> decide

theorem errorNumber_ne_zero (e : ErrorCode) : errorNumber e ≠ 0x0#4 := by
  cases e <;> decide

theorem searchCode_lt (survMax : Nat) (r : Found) : (searchCode survMax r).toNat < 8 := by
  unfold searchCode
  split
  · exact errorNumber_lt _
  · split
    · exact errorNumber_lt _
    · decide

theorem filterCode_lt (r : Found) : (filterCode r).toNat < 8 := by
  unfold filterCode
  split
  · exact errorNumber_lt _
  · split
    · exact errorNumber_lt _
    · decide

/-! ### The effects of the nine commands -/

/-- `Refuses s i e`: in `s` the command `i` raises `e` before it writes anything (60_exceptions.md R181). -/
inductive Refuses (s : State) : Instr → ErrorCode → Prop where
  | rounds (tooMany : s.params.rMax < s.rounds.toNat) : Refuses s .keyset .rounds
  | encrypt (unkeyed : s.status.keyed = false) : Refuses s .encrypt .notKeyed
  | decrypt (unkeyed : s.status.keyed = false) : Refuses s .decrypt .notKeyed
  | sequence (p : Phase) (phase : s.status.sphase ≠ phaseNumber p) : Refuses s (filterInstr p) .sequence
  | overflowed (p : Phase) (sovf : s.status.sovf = true) : Refuses s (filterInstr p) .sovf

/-- `Effect s i c u`: performing `i` on `s`, what the command writes of its own leads to `u`, and it completes with
ERRCODE c. -/
inductive Effect (s : State) : Instr → BitVec 4 → State → Prop where
  | nop : Effect s .nop 0x0#4 s
  | clear : Effect s .clear 0x0#4 (clearSearch s)
  | refused (i : Instr) (e : ErrorCode) (why : Refuses s i e) : Effect s i (errorNumber e) s
  | keyset (inRange : s.rounds.toNat ≤ s.params.rMax) :
      Effect s .keyset 0x0#4
        (loadKeying (keySchedule s.params.pMagic s.params.qMagic s.key s.rounds.toNat) s.rounds.toNat s)
  | encrypt (keyed : s.status.keyed = true) :
      Effect s .encrypt 0x0#4 { s with dout := encryptBlock (subkeyWord s) s.rAct s.din }
  | decrypt (keyed : s.status.keyed = true) :
      Effect s .decrypt 0x0#4 { s with dout := decryptBlock (subkeyWord s) s.rAct s.din }
  | search (p : Phase) :
      Effect s (searchInstr p) (searchCode s.params.survMax (swept p s)) (commit p (swept p s) true s)
  | filter (p : Phase) (phase : s.status.sphase = phaseNumber p) (fits : s.status.sovf = false) :
      Effect s (filterInstr p) (filterCode (refiltered p s)) (commit p (refiltered p s) false s)

theorem Effect.code_lt {s u : State} {i : Instr} {c : BitVec 4} (h : Effect s i c u) : c.toNat < 8 := by
  cases h with
  | refused _ e => exact errorNumber_lt e
  | search p => exact searchCode_lt _ _
  | filter p => exact filterCode_lt _
  | _ => decide

theorem searchInstr_effect {p : Phase} {s t : State} (h : exec (searchInstr p) s = .next t) :
    ∃ c u, Effect s (searchInstr p) c u ∧ t = finish c u := by
  rw [exec_searchInstr] at h
  cases h
  exact ⟨_, _, .search p, searchEnd_eq_finish (swept p s) (commit p (swept p s) true s)⟩

theorem filterInstr_effect {p : Phase} {s t : State} (h : exec (filterInstr p) s = .next t) :
    ∃ c u, Effect s (filterInstr p) c u ∧ t = finish c u := by
  rw [exec_filterInstr] at h
  cases h
  unfold filterCommand
  split
  · next hp => exact ⟨_, s, .refused _ _ (.sequence p hp), rfl⟩
  · next hp =>
    split
    · next hv => exact ⟨_, s, .refused _ _ (.overflowed p hv), rfl⟩
    · next hv =>
      exact ⟨_, _, .filter p (not_not.1 hp) (Bool.eq_false_iff.2 hv), filterEnd_eq_finish (refiltered p s) _⟩

/-- Every command has one of the effects, and completes. -/
theorem exec_effect {i : Instr} {s t : State} (h : exec i s = .next t) :
    ∃ c u, Effect s i c u ∧ t = finish c u := by
  cases i with
  | nop => cases h; exact ⟨_, _, .nop, rfl⟩
  | clear => cases h; exact ⟨_, _, .clear, rfl⟩
  | keyset =>
    cases h
    split
    · next hr => exact ⟨_, _, .refused _ _ (.rounds hr), rfl⟩
    · next hr => exact ⟨_, _, .keyset (Nat.not_lt.1 hr), rfl⟩
  | encrypt =>
    cases h
    cases hk : s.status.keyed with
    | false => exact ⟨_, _, .refused _ _ (.encrypt hk), cipherCommand_of_unkeyed hk _⟩
    | true => exact ⟨_, _, .encrypt hk, cipherCommand_of_keyed hk _⟩
  | decrypt =>
    cases h
    cases hk : s.status.keyed with
    | false => exact ⟨_, _, .refused _ _ (.decrypt hk), cipherCommand_of_unkeyed hk _⟩
    | true => exact ⟨_, _, .decrypt hk, cipherCommand_of_keyed hk _⟩
  | search1 => exact searchInstr_effect (p := .one) h
  | search2 => exact searchInstr_effect (p := .two) h
  | filter1 => exact filterInstr_effect (p := .one) h
  | filter2 => exact filterInstr_effect (p := .two) h

/-- A performed word is no command and ends E_ILLEGAL, or it is a command's and has the command's effect. -/
theorem perform_effect {w : Word} {s t : State} (h : perform w s = .next t) :
    t = finish (errorNumber .illegal) s ∨ ∃ i c u, w = encode i ∧ Effect s i c u ∧ t = finish c u := by
  unfold perform at h
  split at h
  · next i hi =>
    obtain ⟨c, u, effect, rfl⟩ := exec_effect h
    exact .inr ⟨i, c, u, eq_encode_of_decode hi, effect, rfl⟩
  · cases h; exact .inl rfl

/-! ### The five kinds of turn -/

/-- `Turn s t`: the turn taken in `s` leads to `t`. -/
inductive Turn (s : State) : State → Prop where
  /-- the engine performs a word that is no command (30_encoding.md R83) -/
  | illegal (w : Word) (engine : EngineNext s w) : Turn s (finish (errorNumber .illegal) s)
  /-- the engine performs a command (R84) -/
  | command (i : Instr) (c : BitVec 4) (u : State) (engine : EngineNext s (encode i)) (effect : Effect s i c u) :
      Turn s (finish c u)
  /-- the host reads, waits or does nothing: the block's own state is as it was (20_memory.md R68) -/
  | quiet (e : Env) : Turn s { s with env := e }
  /-- the host writes (R70) -/
  | write (addr : Nat) (v : Word) (host : HostNext s (.write addr 4 v)) : Turn s (busWrite addr v (passTurn s))
  /-- the reset input is asserted (70_reset_and_hazards.md R200) -/
  | reset (host : HostNext s .reset) : Turn s (resetBlock (passTurn s))

theorem busRead_eq_env (addr : Nat) (s : State) : ∃ e, busRead addr s = { s with env := e } := by
  obtain ⟨d, h, -⟩ := busRead_eq addr s
  exact ⟨_, h⟩

/-- What a host operation that answers a next state did to the block: `hostOp_cases` with the write's access and the
reset kept by name, and the operations that leave the block alone taken together. -/
theorem hostOp_block_cases {op : HostOp} {s t : State} (h : hostOp op s = .next t) :
    (∃ e, t = { s with env := e }) ∨
    (∃ addr v, op = .write addr 4 v ∧ t = busWrite addr v s) ∨
    (op = .reset ∧ t = resetBlock s) := by
  cases op with
  | write addr width v =>
    simp only [hostOp, hostWrite] at h
    split at h
    · cases h
    · next hf =>
      obtain ⟨-, rfl, -⟩ := (accessFault_none_iff addr width).1 hf
      cases h
      exact .inr (.inl ⟨addr, v, rfl, rfl⟩)
  | reset => cases h; exact .inr (.inr ⟨rfl, rfl⟩)
  | read addr width =>
    simp only [hostOp, hostRead] at h
    split at h
    · cases h
    · cases h; exact .inl (busRead_eq_env addr s)
  | check addr mask want =>
    simp only [hostOp, hostCheck] at h
    split at h
    · cases h
    · split at h
      · cases h; exact .inl (busRead_eq_env addr s)
      · cases h
  | waitIdle =>
    simp only [hostOp, hostWait] at h
    split at h
    · cases h; exact .inl (busRead_eq_env _ _)
    · cases h; exact .inl (busRead_eq_env _ s)
  | idle => cases h; exact .inl ⟨s.env, rfl⟩

theorem step_engine {s : State} {w : Word} (h : EngineNext s w) : step s = perform w s := by
  rw [step, (engineReady_eq_some_iff s w).2 h]

theorem perform_encode (i : Instr) (s : State) : perform (encode i) s = exec i s := by
  rw [perform, decode_encode]

theorem perform_turn {s t : State} {w : Word} (hw : EngineNext s w) (h : perform w s = .next t) : Turn s t := by
  obtain rfl | ⟨i, c, u, rfl, effect, rfl⟩ := perform_effect h
  · exact .illegal w hw
  · exact .command i c u hw effect

/-- Every step that answers a next state is one of the five kinds of turn. -/
theorem step_turn {s t : State} (h : step s = .next t) : Turn s t := by
  obtain ⟨w, hp, hl, hw⟩ | ⟨-, -, rfl⟩ | ⟨op, rest, hr, ho, hop⟩ := step_cases h
  · exact perform_turn ⟨hp, hl⟩ hw
  · exact .quiet _
  · have next : HostNext s op := ⟨hr, by rw [ho, List.head?_cons]⟩
    obtain ⟨e, rfl⟩ | ⟨addr, v, rfl, rfl⟩ | ⟨rfl, rfl⟩ := hostOp_block_cases hop
    · exact .quiet e
    · exact .write addr v next
    · exact .reset next

end Sys2Proof.Machine
end

section
/-! PROOF. The invariant of the block (O56, O57): the state right after reset has it, each kind of turn keeps it. -/

namespace Sys2Proof.Machine

/-! ### States that agree on what the invariant speaks of -/

/-- A state that has the parameters, the storage, the keying and the search state of one with the invariant has it too,
if its own code, DONE and PEND are in order: operand registers, OVERRUN and the model's own fields do not matter. -/
theorem BlockInv.of_tracked {s t : State} (hs : BlockInv s)
    (same : { t with
      doneIe := s.doneIe, rounds := s.rounds, key := s.key, din := s.din, dout := s.dout, pair1 := s.pair1
      pair2 := s.pair2, pair3 := s.pair3, res := s.res, pend := s.pend, env := s.env
      status :=
        { t.status with done := s.status.done, overrun := s.status.overrun, errcode := s.status.errcode } } = s)
    (code : t.status.errcode.toNat < 8)
    (clean : t.pend ≠ none → t.status.done = false ∧ t.status.errcode = 0#4) : BlockInv t := by
  rw [← same] at hs
  exact ⟨hs.legal, hs.storage, hs.rounds, code, hs.sphase, clean, hs.sovf, hs.resolved, hs.noPhase, hs.ascending,
    hs.keyed, hs.unkeyed⟩

theorem BlockInv.finish {s : State} (h : BlockInv s) {c : BitVec 4} (hc : c.toNat < 8) : BlockInv (finish c s) :=
  h.of_tracked rfl hc (absurd rfl)

theorem BlockInv.accept {s : State} (h : BlockInv s) (v : Word) : BlockInv (accept v s) :=
  h.of_tracked rfl (Nat.zero_lt_succ 7) fun _ => ⟨rfl, rfl⟩

theorem BlockInv.withEnv {s : State} (h : BlockInv s) (e : Env) : BlockInv { s with env := e } :=
  h.of_tracked rfl h.errcode h.busyClean

/-! ### Reset -/

theorem blockInv_of_reset_values {s : State} (legal : s.params.Legal) (storage : Memory.wf s)
    (status : s.status = State.reset.status) (count : s.survCount = 0#32) (rounds : s.rAct = 0)
    (idle : s.pend = none) : BlockInv s where
  legal := legal
  storage := storage
  rounds := rounds ▸ Nat.zero_le _
  errcode := by rw [status]; decide
  sphase := by rw [status]; decide
  busyClean h := absurd idle h
  sovf := by rw [status, count]; exact ⟨nofun, nofun⟩
  resolved := by rw [status, count]; decide
  noPhase _ := count
  ascending := by simp [validSurvivors, validCount, count]
  keyed h := by rw [status] at h; cases h
  unkeyed _ := rounds

theorem resetWith_blockInv {c : Params} (h : c.Legal) : BlockInv (State.resetWith c) :=
  blockInv_of_reset_values h (resetWith_memory_wf c) rfl rfl rfl rfl

theorem resetBlock_blockInv {s : State} (h : BlockInv s) : BlockInv (resetBlock s) :=
  blockInv_of_reset_values h.legal (resetBlock_memory_wf s) rfl rfl rfl rfl

/-- Settles O56: with no survivors, no keying and STATUS 0, every clause is about 0 or has a false premise. -/
theorem resetMeetsInvariant : Obligations.ResetMeetsInvariant :=
  ⟨resetWith_blockInv config_defaults_legal, fun _ => resetWith_blockInv⟩

/-! ### What a sweep and a refilter give -/

/-- Survivors in ascending order of CAND (41_search.md R148). -/
def Ascending (l : List Survivor) : Prop := l.Pairwise fun x y => x.cand.toNat < y.cand.toNat

theorem ascending_iff_map_cand (l : List Survivor) :
    Ascending l ↔ (l.map fun e => e.cand.toNat).Pairwise (· < ·) := by
  rw [Ascending, List.pairwise_map]

/-- The values tried so far bound the candidates kept, which ascend. -/
theorem sweepBelow_ascending (cap : Nat) (f1 f2 : Word → Word) (n : Nat) (hn : n ≤ wordSpace) :
    Ascending (sweepBelow cap f1 f2 n).list ∧ ∀ e ∈ (sweepBelow cap f1 f2 n).list, e.cand.toNat < n := by
  induction n with
  | zero => exact ⟨.nil, nofun⟩
  | succ n ih =>
    obtain ⟨asc, below⟩ := ih (by omega)
    have below' : ∀ e ∈ (sweepBelow cap f1 f2 n).list, e.cand.toNat < n + 1 := fun e he =>
      Nat.lt_succ_of_lt (below e he)
    rw [sweepBelow]
    by_cases hit : f1 (BitVec.ofNat 32 n) = f2 (BitVec.ofNat 32 n)
    · rw [sweepStep_hit hit]
      dsimp only
      split
      · have value : (BitVec.ofNat 32 n).toNat = n := by
          rw [BitVec.toNat_ofNat, Nat.mod_eq_of_lt (show n < 2 ^ 32 from hn)]
        refine ⟨List.pairwise_append.2 ⟨asc, List.pairwise_singleton _ _, ?_⟩, ?_⟩
        · intro x hx y hy
          rw [List.mem_singleton.1 hy, value]
          exact below x hx
        · intro e he
          obtain he | he := List.mem_append.1 he
          · exact below' e he
          · rw [List.mem_singleton.1 he, value]
            exact Nat.lt_succ_self n
      · exact ⟨asc, below'⟩
    · rw [sweepStep_miss hit]
      exact ⟨asc, below'⟩

theorem sweep_ascending (cap : Nat) (f1 f2 : Word → Word) : Ascending (sweep cap f1 f2).list := by
  rw [sweep]
  exact (sweepBelow_ascending cap f1 f2 wordSpace (Nat.le_refl _)).1

theorem refilter_cand_sublist (g1 g3 : Word → Word) (l : List Survivor) :
    ((refilter g1 g3 l).map fun e => e.cand.toNat).Sublist (l.map fun e => e.cand.toNat) := by
  induction l with
  | nil => exact .slnil
  | cons e rest ih =>
    rw [refilter]
    split
    · exact ih.cons_cons _
    · exact ih.cons _

theorem refilter_ascending (g1 g3 : Word → Word) {l : List Survivor} (h : Ascending l) :
    Ascending (refilter g1 g3 l) := by
  rw [ascending_iff_map_cand] at h ⊢
  exact h.sublist (refilter_cand_sublist g1 g3 l)

theorem swept_list_length (p : Phase) (s : State) :
    (swept p s).list.length = min (swept p s).count s.params.survMax :=
  sweep_length _ _ _

theorem refiltered_list_length (p : Phase) (s : State) :
    (refiltered p s).list.length = (refiltered p s).count := rfl

theorem refiltered_count_le (p : Phase) (s : State) : (refiltered p s).count ≤ s.params.survMax :=
  calc (refiltered p s).count
      ≤ (validSurvivors s).length := refilter_length_le _ _ _
    _ ≤ validCount s := List.length_take_le _ _
    _ ≤ s.params.survMax := Nat.min_le_right _ _

/-! ### What a commit leaves -/

/-- SURV_COUNT saturates at 2^32 - 1 (10_state.md R39, 41_search.md R141). -/
theorem toNat_saturated (n : Nat) : (BitVec.ofNat 32 (min n 0xFFFFFFFF)).toNat = min n 0xFFFFFFFF := by
  rw [BitVec.toNat_ofNat]
  omega

theorem commit_validCount (p : Phase) (r : Found) (b : Bool) (s : State) :
    validCount (commit p r b s) = min (min r.count 0xFFFFFFFF) s.params.survMax := by
  rw [validCount, commit_survCount, commit_params, toNat_saturated]

/-- After a commit the valid survivors are among those committed. -/
theorem commit_validSurvivors (p : Phase) {r : Found} (b : Bool) {s : State}
    (h : min r.count s.params.survMax ≤ r.list.length) :
    validSurvivors (commit p r b s) = r.list.take (validCount (commit p r b s)) := by
  rw [validSurvivors, commit_surv, List.take_append_of_le_length]
  rw [commit_validCount]
  omega

/-- A commit of ascending survivors, as many of them as the buffer takes, keeps the invariant; a FILTER's, which
writes neither SPHASE nor SOVF, needs also that the phase is the one named and that nothing overflows. -/
theorem BlockInv.commit {s : State} (hs : BlockInv s) (p : Phase) {r : Found} {b : Bool}
    (length : r.list.length = min r.count s.params.survMax) (asc : Ascending r.list)
    (kept : b = false → s.status.sphase = phaseNumber p ∧ s.status.sovf = false ∧ r.count ≤ s.params.survMax) :
    BlockInv (commit p r b s) := by
  have small := hs.legal.survMax_le
  have sphase : (Machine.commit p r b s).status.sphase = phaseNumber p := by
    cases b with
    | true => rfl
    | false => exact (kept rfl).1
  have sovf : (Machine.commit p r b s).status.sovf = true ↔ s.params.survMax < r.count := by
    cases b with
    | true => exact decide_eq_true_iff
    | false =>
      obtain ⟨-, hv, hle⟩ := kept rfl
      rw [commit_status]
      simp [hv, hle]
  have count : (Machine.commit p r b s).survCount.toNat = min r.count 0xFFFFFFFF := toNat_saturated r.count
  refine ⟨hs.legal, commit_memory_wf hs.storage (by omega) p b, hs.rounds, hs.errcode, ?_, hs.busyClean, ?_, ?_, ?_,
    ?_, hs.keyed, hs.unkeyed⟩
  · rw [sphase]; cases p <;> decide
  · rw [sovf, count, commit_params]; omega
  · have one : (Machine.commit p r b s).survCount = 1#32 ↔ min r.count 0xFFFFFFFF = 1 := by
      rw [← BitVec.toNat_inj, count]; rfl
    rw [one, commit_status, decide_eq_true_iff]
    omega
  · rw [sphase]; cases p <;> exact nofun
  · rw [commit_validSurvivors p b (Nat.le_of_eq length.symm)]
    exact asc.sublist (List.take_sublist _ _)

/-! ### Commands -/

theorem BlockInv.clearSearch {s : State} (h : BlockInv s) : BlockInv (clearSearch s) where
  legal := h.legal
  storage := h.storage
  rounds := h.rounds
  errcode := h.errcode
  sphase := Nat.zero_lt_succ 2
  busyClean := h.busyClean
  sovf := ⟨nofun, nofun⟩
  resolved := ⟨nofun, nofun⟩
  noPhase _ := rfl
  ascending := by simp [validSurvivors, validCount]
  keyed := h.keyed
  unkeyed := h.unkeyed

theorem BlockInv.loadKeying {s : State} (h : BlockInv s) (k : Key) {r : Nat} (hr : r ≤ s.params.rMax) :
    BlockInv (loadKeying (keySchedule s.params.pMagic s.params.qMagic k r) r s) where
  legal := h.legal
  storage := loadKeying_memory_wf h.storage (by rw [keySchedule_length, Params.tMax]; omega) r
  rounds := hr
  errcode := h.errcode
  sphase := h.sphase
  busyClean := h.busyClean
  sovf := h.sovf
  resolved := h.resolved
  noPhase := h.noPhase
  ascending := h.ascending
  keyed _ := ⟨k, List.take_left' (keySchedule_length _ _ k r)⟩
  unkeyed := nofun

theorem BlockInv.effect {s u : State} {i : Instr} {c : BitVec 4} (hs : BlockInv s) (h : Effect s i c u) :
    BlockInv u := by
  cases h with
  | nop | refused => exact hs
  | clear => exact hs.clearSearch
  | keyset inRange => exact hs.loadKeying s.key inRange
  | encrypt | decrypt => exact hs.of_tracked rfl hs.errcode hs.busyClean
  | search p => exact hs.commit p (swept_list_length p s) (sweep_ascending _ _ _) nofun
  | filter p phase fits =>
    have le := refiltered_count_le p s
    exact hs.commit p (by rw [refiltered_list_length]; omega) (refilter_ascending _ _ hs.ascending)
      fun _ => ⟨phase, fits, le⟩

/-! ### Host writes -/

/-- While idle, so that busyClean asks nothing of a write but of the one that accepts a command. -/
theorem BlockInv.writeReg {s : State} (hs : BlockInv s) (idle : s.pend = none) (r : Reg) (v : Word) :
    BlockInv (writeReg r v s) := by
  cases r with
  | cmd => exact hs.accept v
  | _ => exact hs.of_tracked rfl hs.errcode (absurd idle)

theorem BlockInv.busWrite {s : State} (hs : BlockInv s) (addr : Nat) (v : Word) : BlockInv (busWrite addr v s) := by
  unfold Machine.busWrite
  split
  · exact hs.of_tracked rfl hs.errcode hs.busyClean
  · next idle =>
    split
    · exact hs.writeReg ((busyBit_eq_false_iff s).1 (Bool.eq_false_iff.2 idle)) _ v
    · exact hs

/-! ### Steps -/

/-- Settles O57, turn by turn: a completion keeps what the command's own writes keep; a write, the clauses of what it
does not write. -/
theorem stepKeepsInvariant : Obligations.StepKeepsInvariant := by
  intro s t hs h
  cases step_turn h with
  | illegal => exact hs.finish (errorNumber_lt .illegal)
  | command i c u _ effect => exact (hs.effect effect).finish effect.code_lt
  | quiet e => exact hs.withEnv e
  | write addr v => exact (hs.withEnv _).busWrite addr v
  | reset => exact resetBlock_blockInv (hs.withEnv _)

end Sys2Proof.Machine
end

section
/-! PROOF. The register map (O39), the rules of a host write and of a read that follow from it, and the claims about
single registers: ID and PARAMS (O46), STATUS (O43) and the masked windows (O47). -/

namespace Sys2Proof.Machine

/-! ### The register map -/

/-- The registers a block with parameters `c` has: survivor slots below SURV_MAX, subkey words below T_MAX (20_memory.md
R61), and every other register of the map. -/
def Reg.inBlock (c : Params) : Reg → Prop
  | .survCand n | .survPaired n => n < c.survMax
  | .subkey m => m < c.tMax
  | _ => True

theorem inBlock_of_mem_namedRegs (c : Params) {r : Reg} (h : r ∈ namedRegs) : r.inBlock c := by
  have noWindow (n : Nat) :
      Reg.survCand n ∉ namedRegs ∧ Reg.survPaired n ∉ namedRegs ∧ Reg.subkey n ∉ namedRegs := by
    simp [namedRegs]
  cases r with
  | survCand n => exact absurd h (noWindow n).1
  | survPaired n => exact absurd h (noWindow n).2.1
  | subkey m => exact absurd h (noWindow m).2.2
  | _ => trivial

/-- The register named by an offset has that offset and is one of the block's, whatever the parameters. -/
theorem regAt_some {c : Params} {addr : Nat} {r : Reg} (h : regAt c addr = some r) :
    regOffset r = addr ∧ r.inBlock c := by
  unfold regAt at h
  split at h
  · exact ⟨eq_of_beq (List.find?_some h :), inBlock_of_mem_namedRegs c (List.mem_of_find?_eq_some h)⟩
  · split at h
    · split at h
      · cases h; simp only [regOffset, Reg.inBlock]; omega
      · split at h
        · cases h; simp only [regOffset, Reg.inBlock]; omega
        · cases h
    · split at h
      · split at h
        · cases h; simp only [regOffset, Reg.inBlock]; omega
        · cases h
      · cases h

theorem regAt_survCand {c : Params} {n : Nat} (h : n < c.survMax) :
    regAt c (regOffset (.survCand n)) = some (.survCand n) := by
  have index : (0x200 + 8 * n - 0x200) / 8 = n := by omega
  rw [regOffset, regAt, if_neg (by omega), if_pos (by omega), if_pos (by omega), index]

theorem regAt_survPaired {c : Params} {n : Nat} (h : n < c.survMax) :
    regAt c (regOffset (.survPaired n)) = some (.survPaired n) := by
  have index : (0x204 + 8 * n - 0x200) / 8 = n := by omega
  rw [regOffset, regAt, if_neg (by omega), if_pos (by omega), if_neg (by omega), if_pos (by omega), index]

/-- The survivor window of a legal block ends before the subkey window. -/
theorem regAt_subkey {c : Params} (legal : c.survMax ≤ 64) {m : Nat} (h : m < c.tMax) :
    regAt c (regOffset (.subkey m)) = some (.subkey m) := by
  have index : (0x800 + 4 * m - 0x800) / 4 = m := by omega
  rw [regOffset, regAt, if_neg (by omega), if_neg (by omega), if_pos (by omega), if_pos (by omega), index]

theorem regAt_survCand_reserved {c : Params} {n : Nat} (h : c.survMax ≤ n) (hn : n < survSlots) :
    regAt c (0x200 + 8 * n) = none := by
  rw [survSlots] at hn
  rw [regAt, if_neg (by omega), if_neg (by omega), if_neg (by omega)]

theorem regAt_survPaired_reserved {c : Params} {n : Nat} (h : c.survMax ≤ n) (hn : n < survSlots) :
    regAt c (0x204 + 8 * n) = none := by
  rw [survSlots] at hn
  rw [regAt, if_neg (by omega), if_neg (by omega), if_neg (by omega)]

theorem regAt_subkey_reserved {c : Params} (legal : c.survMax ≤ 64) {m : Nat} (h : c.tMax ≤ m) :
    regAt c (0x800 + 4 * m) = none := by
  rw [regAt, if_neg (by omega), if_neg (by omega), if_neg (by omega)]

theorem regAt_regOffset {c : Params} (legal : c.survMax ≤ 64) {r : Reg} (h : r.inBlock c) :
    regAt c (regOffset r) = some r := by
  cases r with
  | survCand n => exact regAt_survCand h
  | survPaired n => exact regAt_survPaired h
  | subkey m => exact regAt_subkey legal h
  | _ => exact regAt_named (by decide) c

theorem inBlock_wf {c : Params} (legal : c.Legal) {r : Reg} (h : r.inBlock c) :
    r.wf = true ∧ regOffset r % 4 = 0 ∧ regOffset r < 0x1000 := by
  obtain ⟨-, rMax_le, -, survMax_le, -, -⟩ := legal
  cases r with
  | survCand n | survPaired n =>
    have slot : n < survSlots := Nat.lt_of_lt_of_le h survMax_le
    refine ⟨decide_eq_true slot, ?_⟩
    rw [survSlots] at slot
    simp only [regOffset]
    omega
  | subkey m =>
    simp only [Reg.inBlock, Params.tMax] at h
    have slot : m < subkeySlots := by rw [subkeySlots]; omega
    refine ⟨decide_eq_true slot, ?_⟩
    rw [subkeySlots] at slot
    simp only [regOffset]
    omega
  | _ => decide

/-- Settles O39: an offset names exactly the register of the block that has it. -/
theorem registerMapRoundTrip : Obligations.RegisterMapRoundTrip := by
  constructor
  · intro c r legal _ hsurv hsub
    refine regAt_regOffset legal.survMax_le ?_
    cases r with
    | survCand n => exact hsurv n (.inl rfl)
    | survPaired n => exact hsurv n (.inr rfl)
    | subkey m => exact hsub m rfl
    | _ => trivial
  · intro c addr r legal h
    obtain ⟨rfl, mine⟩ := regAt_some h
    exact ⟨rfl, inBlock_wf legal mine⟩

/-! ### STATUS, bit by bit -/

theorem atBit_getLsbD {n : Nat} (lo : Nat) (v : BitVec n) (k : Nat) :
    (atBit lo v).getLsbD k = (decide (k < 32) && decide (lo ≤ k) && v.getLsbD (k - lo)) := by
  rw [atBit, BitVec.getLsbD_shiftLeft, BitVec.getLsbD_setWidth]
  by_cases hk : k < 32
  · have : k - lo < 32 := by omega
    by_cases hl : lo ≤ k <;> simp [hk, hl, this]
  · simp [hk]

theorem atBit_bool_getLsbD (lo : Nat) (b : Bool) {k : Nat} (hk : k < 32) :
    (atBit lo (BitVec.ofBool b)).getLsbD k = (decide (k = lo) && b) := by
  rw [atBit_getLsbD]
  by_cases h : k = lo
  · subst h; simp [hk]
  · by_cases hl : lo ≤ k
    · have : k - lo ≠ 0 := by omega
      simp [h, this]
    · simp [h, hl]

theorem statusWord_getLsbD (s : State) {k : Nat} (hk : k < 32) :
    (statusWord s).getLsbD k =
      (decide (k = 0) && busyBit s || decide (k = 1) && s.status.done || decide (k = 2) && errBit s ||
       decide (k = 3) && s.status.keyed || decide (k = 4) && s.status.resolved || decide (k = 5) && s.status.sovf ||
       decide (k = 6) && s.status.overrun || decide (k = 7) && irq s ||
       decide (8 ≤ k) && s.status.errcode.getLsbD (k - 8) ||
       decide (12 ≤ k) && s.status.sphase.getLsbD (k - 12)) := by
  simp only [statusWord, BitVec.getLsbD_or, atBit_bool_getLsbD _ _ hk, atBit_getLsbD, hk, decide_true, Bool.true_and]

theorem busyBit_eq_decide (s : State) : busyBit s = decide (s.pend ≠ none) :=
  Bool.eq_iff_iff.2 ((busyBit_eq_true_iff s).trans decide_eq_true_iff.symm)

theorem errBit_eq_decide (s : State) : errBit s = decide (s.status.errcode ≠ 0#4) :=
  Bool.eq_iff_iff.2 (bne_iff_ne.trans decide_eq_true_iff.symm)

/-- Settles O43: each bit is the one term of STATUS that reaches it, as a field reads 0 beyond its width. -/
theorem statusWordLayout : Obligations.StatusWordLayout := by
  refine ⟨rfl, fun s => ?_⟩
  have bit {k : Nat} (hk : k < 32) := statusWord_getLsbD s hk
  refine ⟨(bit (by decide)).trans ?_, (bit (by decide)).trans ?_, (bit (by decide)).trans ?_,
    (bit (by decide)).trans ?_, (bit (by decide)).trans ?_, (bit (by decide)).trans ?_, (bit (by decide)).trans ?_,
    (bit (by decide)).trans ?_, rfl, ?_, ?_, ?_⟩
  case refine_1 => simp [busyBit_eq_decide]
  case refine_3 => simp [errBit_eq_decide]
  case refine_9 | refine_10 | refine_11 =>
    refine BitVec.eq_of_getLsbD_eq fun k hk => ?_
    rw [BitVec.getLsbD_extractLsb', regValue, bit (by omega)]
    simp [hk, Nat.add_comm _ k]
  all_goals simp

/-! ### What a host reads and writes at one offset -/

theorem busReadValue_of_exact {addr : Nat} {r : Reg} {s : State} (hr : regAt s.params addr = some r)
    (exact : readIsFree r s = false) : busReadValue addr s = regValue r s := by
  rw [busReadValue, hr]
  exact if_neg (Bool.eq_false_iff.1 exact)

theorem busReadValue_reserved {addr : Nat} {s : State} (hr : regAt s.params addr = none) :
    busReadValue addr s = 0#32 := by
  rw [busReadValue, hr]

theorem readIsFree_of_idle {s : State} (idle : s.pend = none) (r : Reg) : readIsFree r s = false := by
  rw [readIsFree, (busyBit_eq_false_iff s).2 idle, Bool.false_and]

theorem readIsFree_of_stable {r : Reg} (h : regVolatile r = false) (s : State) : readIsFree r s = false := by
  rw [readIsFree, h, Bool.and_false]

/-- A register with an offset of its own that no command changes reads its value at all times (20_memory.md R69). -/
theorem busReadValue_stable {r : Reg} (hr : r ∈ namedRegs) (stable : regVolatile r = false) (s : State) :
    busReadValue (regOffset r) s = regValue r s :=
  busReadValue_of_exact (regAt_named hr s.params) (readIsFree_of_stable stable s)

theorem busWrite_named {r : Reg} (hr : r ∈ namedRegs) {s : State} (idle : s.pend = none) (v : Word) :
    busWrite (regOffset r) v s = writeReg r v s :=
  busWrite_idle ((busyBit_eq_false_iff s).2 idle) (regAt_named hr s.params) v

/-! ### Identification -/

theorem busReadValue_id (s : State) : busReadValue 0x000 s = 0x52433501#32 :=
  busReadValue_stable (r := .id) (by decide) rfl s

theorem busReadValue_params (s : State) :
    busReadValue 0x004 s = BitVec.ofNat 32 (s.params.rMax + 2 ^ 16 * s.params.survMax) :=
  busReadValue_stable (r := .params) (by decide) rfl s

/-- Settles O46: the two fields of PARAMS do not overlap, as legal parameters are below 2^16, and no write changes the
parameters. -/
theorem identificationIsConstant : Obligations.IdentificationIsConstant := by
  intro s legal
  have rMax_le := legal.rMax_le
  have survMax_le := legal.survMax_le
  refine ⟨busReadValue_id s, ?_, ?_, ?_, ?_, ?_⟩
  · apply BitVec.eq_of_toNat_eq
    rw [busReadValue_params, BitVec.extractLsb'_toNat, BitVec.toNat_ofNat, BitVec.toNat_ofNat, Nat.shiftRight_zero]
    omega
  · apply BitVec.eq_of_toNat_eq
    rw [busReadValue_params, BitVec.extractLsb'_toNat, BitVec.toNat_ofNat, BitVec.toNat_ofNat,
      Nat.shiftRight_eq_div_pow]
    omega
  · intro h
    rw [busReadValue_params, h]
    rfl
  · intro v idle
    exact ⟨busWrite_named (r := .id) (by decide) idle v, busWrite_named (r := .params) (by decide) idle v⟩
  · intro v
    exact ⟨busReadValue_id _, by rw [busReadValue_params, busReadValue_params, busWrite_params]⟩

/-! ### The masked windows -/

/-- Settles O47: a slot the block has reads its masked entry; a reserved slot, which the mask hides too, reads 0. -/
theorem maskedWindowReads : Obligations.MaskedWindowReads := by
  intro s legal rounds idle
  have value {addr : Nat} {r : Reg} (hr : regAt s.params addr = some r) : busReadValue addr s = regValue r s :=
    busReadValue_of_exact hr (readIsFree_of_idle idle r)
  constructor
  · intro n hn
    by_cases h : n < s.params.survMax
    · exact ⟨value (regAt_survCand h), value (regAt_survPaired h)⟩
    · have masked : ¬ n < min s.survCount.toNat s.params.survMax := by omega
      rw [if_neg masked, if_neg masked]
      exact ⟨busReadValue_reserved (regAt_survCand_reserved (Nat.not_lt.1 h) hn),
        busReadValue_reserved (regAt_survPaired_reserved (Nat.not_lt.1 h) hn)⟩
  · intro m _
    by_cases h : m < s.params.tMax
    · exact value (regAt_subkey legal.survMax_le h)
    · have masked : ¬ (s.status.keyed = true ∧ m < 2 * (s.rAct + 1)) := by
        rw [Params.tMax] at h
        omega
      rw [if_neg masked]
      exact busReadValue_reserved (regAt_subkey_reserved legal.survMax_le (Nat.not_lt.1 h))

end Sys2Proof.Machine
end

section
/-! PROOF. Who writes what (O8, O10, O48, O49, O50): the frame of each effect of a command and of each host write, and
from them the frame of every turn. -/

namespace Sys2Proof.Machine

/-! ### What an effect leaves as it was -/

/-- The fields that no command writes: INT_EN, the operand registers, the parameters and the model's own fields. -/
theorem Effect.operands {s u : State} {i : Instr} {c : BitVec 4} (h : Effect s i c u) :
    u.doneIe = s.doneIe ∧ u.rounds = s.rounds ∧ u.key = s.key ∧ u.din = s.din ∧ u.pair1 = s.pair1 ∧
    u.pair2 = s.pair2 ∧ u.pair3 = s.pair3 ∧ u.params = s.params ∧ u.env = s.env := by
  cases h <;> exact ⟨rfl, rfl, rfl, rfl, rfl, rfl, rfl, rfl, rfl⟩

section
variable {s u : State} {i : Instr} {c : BitVec 4} (h : Effect s i c u)
include h

theorem Effect.overrun (hi : i ≠ .clear) : u.status.overrun = s.status.overrun := by
  cases h with
  | clear => exact absurd rfl hi
  | _ => rfl

theorem Effect.keying (hi : i ≠ .keyset) :
    u.subkeyRam = s.subkeyRam ∧ u.rAct = s.rAct ∧ u.status.keyed = s.status.keyed := by
  cases h with
  | keyset => exact absurd rfl hi
  | _ => exact ⟨rfl, rfl, rfl⟩

theorem Effect.dout (henc : i ≠ .encrypt) (hdec : i ≠ .decrypt) : u.dout = s.dout := by
  cases h with
  | encrypt => exact absurd rfl henc
  | decrypt => exact absurd rfl hdec
  | _ => rfl

theorem Effect.buffer (hi : i ∉ [Instr.search1, .filter1, .search2, .filter2]) :
    u.surv = s.surv ∧ u.res = s.res := by
  cases h with
  | search p | filter p => cases p <;> exact absurd (by decide) hi
  | _ => exact ⟨rfl, rfl⟩

theorem Effect.found (hi : i ∉ [Instr.search1, .filter1, .search2, .filter2, .clear]) :
    u.survCount = s.survCount ∧ u.status.resolved = s.status.resolved := by
  cases h with
  | search p | filter p => cases p <;> exact absurd (by decide) hi
  | clear => exact absurd (by decide) hi
  | _ => exact ⟨rfl, rfl⟩

theorem Effect.phase (hi : i ∉ [Instr.search1, .search2, .clear]) :
    u.status.sovf = s.status.sovf ∧ u.status.sphase = s.status.sphase := by
  cases h with
  | search p => cases p <;> exact absurd (by decide) hi
  | clear => exact absurd (by decide) hi
  | _ => exact ⟨rfl, rfl⟩

end

/-- Phase 1 writes RES_S3 and RES_S1 only (41_search.md R142). -/
theorem resultOf_one (r : Found) (res : Results) :
    (resultOf .one r res).s0 = res.s0 ∧ (resultOf .one r res).s2 = res.s2 := by
  unfold resultOf
  split
  · split <;> exact ⟨rfl, rfl⟩
  · exact ⟨rfl, rfl⟩

/-- Phase 2 writes RES_S2 and RES_S0 only (R142). -/
theorem resultOf_two (r : Found) (res : Results) :
    (resultOf .two r res).s1 = res.s1 ∧ (resultOf .two r res).s3 = res.s3 := by
  unfold resultOf
  split
  · split <;> exact ⟨rfl, rfl⟩
  · exact ⟨rfl, rfl⟩

theorem Effect.results_phase1 {s u : State} {i : Instr} {c : BitVec 4} (h : Effect s i c u)
    (hi : i ∈ [Instr.search1, .filter1]) : u.res.s0 = s.res.s0 ∧ u.res.s2 = s.res.s2 := by
  cases h with
  | search p | filter p =>
    cases p with
    | one => exact resultOf_one _ _
    | two => exact absurd hi (by decide)
  | _ => exact ⟨rfl, rfl⟩

theorem Effect.results_phase2 {s u : State} {i : Instr} {c : BitVec 4} (h : Effect s i c u)
    (hi : i ∈ [Instr.search2, .filter2]) : u.res.s1 = s.res.s1 ∧ u.res.s3 = s.res.s3 := by
  cases h with
  | search p | filter p =>
    cases p with
    | one => exact absurd hi (by decide)
    | two => exact resultOf_two _ _
  | _ => exact ⟨rfl, rfl⟩

/-- Settles O10: the frame of the command's effect, as a completion writes ERRCODE, DONE and PEND only. -/
theorem commandFrames : Obligations.CommandFrames := by
  intro i s t h
  obtain ⟨c, u, effect, rfl⟩ := exec_effect h
  obtain ⟨doneIe, rounds, key, din, pair1, pair2, pair3, params, env⟩ := effect.operands
  refine ⟨doneIe, rounds, key, din, pair1, pair2, pair3, params, env, effect.overrun, effect.keying, effect.dout,
    fun hi => effect.buffer ?_, fun hi => effect.found ?_, effect.phase, effect.results_phase1, effect.results_phase2⟩
  · have apart : ∀ j ∈ [Instr.nop, .keyset, .encrypt, .decrypt, .clear],
        j ∉ [Instr.search1, .filter1, .search2, .filter2] := by decide
    exact apart i hi
  · have apart : ∀ j ∈ [Instr.nop, .keyset, .encrypt, .decrypt],
        j ∉ [Instr.search1, .filter1, .search2, .filter2, .clear] := by decide
    exact apart i hi

/-! ### What a host write leaves as it was -/

/-- What a host never writes is the same in both: the storage arrays, the keying, DOUT and SURV_COUNT. -/
def SameResults (s t : State) : Prop :=
  t.subkeyRam = s.subkeyRam ∧ t.rAct = s.rAct ∧ t.status.keyed = s.status.keyed ∧ t.dout = s.dout ∧
  t.surv = s.surv ∧ t.survCount = s.survCount

theorem writeReg_sameResults (r : Reg) (v : Word) (s : State) : SameResults s (writeReg r v s) := by
  cases r <;> exact ⟨rfl, rfl, rfl, rfl, rfl, rfl⟩

theorem busWrite_sameResults (addr : Nat) (v : Word) (s : State) : SameResults s (busWrite addr v s) := by
  unfold busWrite
  split
  · exact ⟨rfl, rfl, rfl, rfl, rfl, rfl⟩
  · split
    · exact writeReg_sameResults _ v s
    · exact ⟨rfl, rfl, rfl, rfl, rfl, rfl⟩

theorem writeReg_pend {r : Reg} (hr : r ≠ .cmd) (v : Word) (s : State) : (writeReg r v s).pend = s.pend := by
  cases r with
  | cmd => exact absurd rfl hr
  | _ => rfl

theorem writeReg_overrun {r : Reg} (hr : r ≠ .status) (v : Word) (s : State) :
    (writeReg r v s).status.overrun = s.status.overrun := by
  cases r with
  | status => exact absurd rfl hr
  | _ => rfl

/-- A host write changes PEND only as CMD while idle (10_state.md R28). -/
theorem busWrite_pend {addr : Nat} {s : State} (h : addr ≠ 0x008 ∨ s.pend ≠ none) (v : Word) :
    (busWrite addr v s).pend = s.pend := by
  unfold busWrite
  split
  · rfl
  · next idle =>
    split
    · next r hr =>
      refine writeReg_pend ?_ v s
      rintro rfl
      obtain notCmd | busy := h
      · exact notCmd (regAt_some hr).1.symm
      · exact idle ((busyBit_eq_true_iff s).2 busy)
    · rfl

/-- A host write clears OVERRUN only as STATUS while idle, by bit 6 (R34). -/
theorem busWrite_clears_overrun {addr : Nat} {v : Word} {s : State} (set : s.status.overrun = true)
    (cleared : (busWrite addr v s).status.overrun = false) :
    s.pend = none ∧ addr = 0x00C ∧ v.getLsbD 6 = true := by
  unfold busWrite at cleared
  split at cleared
  · cases cleared
  · next idle =>
    split at cleared
    · next r hr =>
      have isStatus : r = .status := by
        by_contra other
        rw [writeReg_overrun other, set] at cleared
        cases cleared
      subst isStatus
      refine ⟨(busyBit_eq_false_iff s).1 (Bool.eq_false_iff.2 idle), (regAt_some hr).1.symm, ?_⟩
      simpa [writeReg, set] using cleared
    · rw [set] at cleared
      cases cleared

/-! ### BUSY, DONE and OVERRUN -/

/-- Settles O8: acceptance and completion write BUSY and DONE, and every other write leaves PEND. -/
theorem everyCommandWordCompletes : Obligations.EveryCommandWordCompletes := by
  refine ⟨?_, ?_, ?_, ?_⟩
  · intro s v idle
    rw [show busWrite 0x008 v s = accept v s from busWrite_named (r := .cmd) (by decide) idle v]
    exact ⟨rfl, rfl⟩
  · intro s w engine
    obtain ⟨t, ht⟩ := perform_next w s
    refine ⟨t, (step_engine engine).trans ht, ?_⟩
    obtain rfl | ⟨i, c, u, -, effect, rfl⟩ := perform_effect ht
    · exact ⟨rfl, rfl, rfl, rfl⟩
    · obtain ⟨-, -, -, -, -, -, -, -, env⟩ := effect.operands
      exact ⟨rfl, rfl, rfl, env⟩
  · intro s addr v h
    rw [busyBit, busyBit, busWrite_pend h v]
  · intro s v idle
    rw [show busWrite 0x00C v s = writeStatus v s from busWrite_named (r := .status) (by decide) idle v,
      writeStatus_status]

/-- Settles O48, turn by turn: of the commands only CLEAR writes OVERRUN, of the writes only one of STATUS clears it. -/
theorem overrunIsSticky : Obligations.OverrunIsSticky := by
  refine ⟨?_, ?_, fun _ _ => rfl⟩
  · intro s addr v busy
    rw [busWrite_busy ((busyBit_eq_true_iff s).2 busy)]
  · intro s t h set cleared
    have changed : t.status.overrun ≠ s.status.overrun := by rw [set, cleared]; decide
    cases step_turn h with
    | illegal | quiet => exact absurd rfl changed
    | command i c u engine effect =>
      have isClear : i = .clear := not_imp_comm.1 effect.overrun changed
      exact .inr (.inl (isClear ▸ engine))
    | write addr v host =>
      obtain ⟨idle, rfl, bit6⟩ := busWrite_clears_overrun (s := passTurn s) set cleared
      exact .inl ⟨idle, v, host, bit6⟩
    | reset host => exact .inr (.inr host)

/-! ### KEYED -/

theorem exec_unkeyed {s : State} (unkeyed : s.status.keyed = false) {i : Instr}
    (hi : i ∈ [Instr.encrypt, .decrypt]) : exec i s = .next (finish (errorNumber .notKeyed) s) := by
  rw [List.mem_pair] at hi
  obtain rfl | rfl := hi
  · exact congrArg Host.Outcome.next (cipherCommand_of_unkeyed unkeyed encryptBlock)
  · exact congrArg Host.Outcome.next (cipherCommand_of_unkeyed unkeyed decryptBlock)

/-- Only a KEYSET that ends without error writes KEYED, and such a one sets it. -/
theorem Effect.keyset_sets {s u : State} {i : Instr} {c : BitVec 4} (h : Effect s i c u)
    (changed : u.status.keyed ≠ s.status.keyed) : i = .keyset ∧ c = 0#4 ∧ u.status.keyed = true := by
  cases h with
  | keyset => exact ⟨rfl, rfl, rfl⟩
  | _ => exact absurd rfl changed

theorem Effect.keyed_of_code_zero {s u : State} {i : Instr} {c : BitVec 4} (h : Effect s i c u) (hi : i = .keyset)
    (hc : c = 0#4) : u.status.keyed = true := by
  cases h with
  | keyset => rfl
  | refused _ e => exact absurd hc (errorNumber_ne_zero e)
  | search p | filter p => cases p <;> cases hi
  | _ => cases hi

/-- Settles O49, turn by turn: the effect of KEYSET within the range and the reset are the only writes of KEYED. -/
theorem keyedSetByKeysetClearedByReset : Obligations.KeyedSetByKeysetClearedByReset := by
  refine ⟨rfl, ?_, ?_, ?_⟩
  · intro s t h changed
    cases step_turn h with
    | illegal | quiet => exact absurd rfl changed
    | command i c u engine effect =>
      obtain ⟨rfl, rfl, set⟩ := effect.keyset_sets changed
      exact .inl ⟨set, engine, rfl⟩
    | write addr v =>
      obtain ⟨-, -, keyed, -⟩ := busWrite_sameResults addr v (passTurn s)
      exact absurd keyed changed
    | reset host => exact .inr ⟨rfl, host⟩
  · intro s t engine h code
    rw [step_engine engine, perform_encode] at h
    obtain ⟨c, u, effect, rfl⟩ := exec_effect h
    exact effect.keyed_of_code_zero rfl code
  · intro s unkeyed
    refine ⟨fun m => ?_, fun i hi => ?_⟩
    · exact if_neg fun shown => by rw [unkeyed] at shown; cases shown.1
    · exact ⟨_, exec_unkeyed unkeyed hi, rfl, rfl⟩

/-! ### Writers -/

/-- The registers a host writes and no command does are the same in both: INT_EN and the operands. -/
def SameOperands (s t : State) : Prop :=
  t.key = s.key ∧ t.rounds = s.rounds ∧ t.din = s.din ∧ t.pair1 = s.pair1 ∧ t.pair2 = s.pair2 ∧ t.pair3 = s.pair3 ∧
  t.doneIe = s.doneIe

theorem not_sameOperands_iff (s t : State) : ¬ SameOperands s t ↔
    t.key ≠ s.key ∨ t.rounds ≠ s.rounds ∨ t.din ≠ s.din ∨ t.pair1 ≠ s.pair1 ∨ t.pair2 ≠ s.pair2 ∨
      t.pair3 ≠ s.pair3 ∨ t.doneIe ≠ s.doneIe := by
  simp only [SameOperands, not_and_or, ne_eq]

theorem Effect.sameOperands {s u : State} {i : Instr} {c : BitVec 4} (h : Effect s i c u) : SameOperands s u := by
  obtain ⟨doneIe, rounds, key, din, pair1, pair2, pair3, -, -⟩ := h.operands
  exact ⟨key, rounds, din, pair1, pair2, pair3, doneIe⟩

theorem sameOperands_of_busy {s : State} (busy : s.pend ≠ none) (addr : Nat) (v : Word) :
    SameOperands s (busWrite addr v s) := by
  rw [busWrite_busy ((busyBit_eq_true_iff s).2 busy)]
  exact ⟨rfl, rfl, rfl, rfl, rfl, rfl, rfl⟩

/-- Settles O50, turn by turn, from the frames of the effects and of the host writes. -/
theorem writersOfState : Obligations.WritersOfState := by
  intro s t h notReset
  rw [← not_sameOperands_iff]
  cases step_turn h with
  | illegal | quiet =>
    exact ⟨fun hne => hne.elim (absurd rfl) (absurd rfl), absurd rfl, absurd rfl, absurd rfl,
      absurd ⟨rfl, rfl, rfl, rfl, rfl, rfl, rfl⟩⟩
  | command i c u engine effect =>
    refine ⟨fun hne => ?_, fun hne => ?_, fun hne => ?_, fun hne => ?_, absurd effect.sameOperands⟩
    · by_cases hi : i = .keyset
      · exact hi ▸ engine
      · obtain ⟨ram, rounds, -⟩ := effect.keying hi
        exact hne.elim (absurd ram) (absurd rounds)
    · by_cases henc : i = .encrypt
      · exact .inl (henc ▸ engine)
      · have hdec : i = .decrypt := not_imp_comm.1 (effect.dout henc) hne
        exact .inr (hdec ▸ engine)
    · exact ⟨i, not_imp_comm.1 (fun hi => (effect.buffer hi).1) hne, engine⟩
    · exact ⟨i, not_imp_comm.1 (fun hi => (effect.found hi).1) hne, engine⟩
  | write addr v host =>
    obtain ⟨ram, rounds, -, dout, surv, count⟩ := busWrite_sameResults addr v (passTurn s)
    refine ⟨fun hne => hne.elim (absurd ram) (absurd rounds), absurd dout, absurd surv, absurd count, fun hne => ?_⟩
    have idle : s.pend = none := by
      by_contra busy
      exact hne (sameOperands_of_busy (s := passTurn s) busy addr v)
    exact ⟨idle, addr, v, host⟩
  | reset host => exact absurd host notReset

end Sys2Proof.Machine
end

section
/-! PROOF. Masked storage is unobservable (O58): every operation of the block takes two states that differ in masked
storage only to two such states, and shows the host the same. -/

namespace Sys2Proof.Machine

theorem SameView.refl (s : State) : SameView s s := ⟨rfl, rfl, fun _ _ _ => rfl⟩

/-! ### What two such states have in common -/

section
variable {s t : State} (h : SameView s t)
include h

/-- A function that does the same whatever the storage arrays hold does the same on both. -/
theorem SameView.congr {α : Type} (f : State → α)
    (blind : ∀ u surv ram, f { u with surv := surv, subkeyRam := ram } = f u := by intros; rfl) : f t = f s :=
  (blind t s.surv s.subkeyRam).symm.trans (congrArg f h.rest)

theorem SameView.params : t.params = s.params := h.congr State.params
theorem SameView.status : t.status = s.status := h.congr State.status
theorem SameView.rAct : t.rAct = s.rAct := h.congr State.rAct
theorem SameView.env : t.env = s.env := h.congr State.env
theorem SameView.busyBit : busyBit t = busyBit s := h.congr Machine.busyBit
theorem SameView.engineReady : engineReady t = engineReady s := h.congr Machine.engineReady
theorem SameView.validCount : validCount t = validCount s := h.congr Machine.validCount
theorem SameView.phaseCand (p : Phase) (q : Pair) : phaseCand p t q = phaseCand p s q :=
  h.congr (Machine.phaseCand p · q)

end

/-! ### Operations that neither read nor write storage -/

/-- `f` leaves the two storage arrays and what masks them as they were, and does the same whatever they hold. -/
structure StorageBlind (f : State → State) : Prop where
  masks : ∀ s, (f s).params = s.params ∧ (f s).survCount = s.survCount ∧ (f s).rAct = s.rAct ∧
    (f s).status.keyed = s.status.keyed
  commutes : ∀ s surv ram,
    f { s with surv := surv, subkeyRam := ram } = { f s with surv := surv, subkeyRam := ram }

theorem StorageBlind.surv {f : State → State} (hf : StorageBlind f) (s : State) : (f s).surv = s.surv :=
  (congrArg State.surv (hf.commutes s s.surv s.subkeyRam) :)

theorem StorageBlind.subkeyRam {f : State → State} (hf : StorageBlind f) (s : State) :
    (f s).subkeyRam = s.subkeyRam :=
  (congrArg State.subkeyRam (hf.commutes s s.surv s.subkeyRam) :)

theorem StorageBlind.validSurvivors {f : State → State} (hf : StorageBlind f) (s : State) :
    validSurvivors (f s) = validSurvivors s := by
  obtain ⟨params, survCount, -, -⟩ := hf.masks s
  simp only [Machine.validSurvivors, Machine.validCount, hf.surv, survCount, params]

theorem StorageBlind.subkeyWord {f : State → State} (hf : StorageBlind f) (s : State) (m : Nat) :
    subkeyWord (f s) m = subkeyWord s m := by
  rw [Machine.subkeyWord, hf.subkeyRam, Machine.subkeyWord]

theorem SameView.map {f : State → State} (hf : StorageBlind f) {s t : State} (h : SameView s t) :
    SameView (f s) (f t) where
  rest := by
    rw [hf.surv, hf.subkeyRam, ← hf.commutes, h.rest]
  survivors := by
    rw [hf.validSurvivors, hf.validSurvivors, h.survivors]
  subkeys hk m hm := by
    obtain ⟨-, -, rAct, keyed⟩ := hf.masks s
    rw [keyed] at hk
    rw [tAct, rAct] at hm
    rw [hf.subkeyWord, hf.subkeyWord, h.subkeys hk m hm]

theorem finish_blind (c : BitVec 4) : StorageBlind (finish c) :=
  ⟨fun _ => ⟨rfl, rfl, rfl, rfl⟩, fun _ _ _ => rfl⟩

theorem withDout_blind (d : Block) : StorageBlind fun s => { s with dout := d } :=
  ⟨fun _ => ⟨rfl, rfl, rfl, rfl⟩, fun _ _ _ => rfl⟩

theorem withEnv_blind (f : Env → Env) : StorageBlind fun s => { s with env := f s.env } :=
  ⟨fun _ => ⟨rfl, rfl, rfl, rfl⟩, fun _ _ _ => rfl⟩

theorem setOverrun_blind : StorageBlind fun s => { s with status := { s.status with overrun := true } } :=
  ⟨fun _ => ⟨rfl, rfl, rfl, rfl⟩, fun _ _ _ => rfl⟩

theorem writeReg_blind (r : Reg) (v : Word) : StorageBlind (writeReg r v) where
  masks s := by
    obtain ⟨-, rAct, keyed, -, -, survCount⟩ := writeReg_sameResults r v s
    exact ⟨writeReg_params r v s, survCount, rAct, keyed⟩
  commutes s _ _ := by cases r <;> rfl

theorem SameView.finish {s t : State} (h : SameView s t) (c : BitVec 4) : SameView (finish c s) (finish c t) :=
  h.map (finish_blind c)

/-! ### Operations that write storage or its masks -/

theorem SameView.clearSearch {s t : State} (h : SameView s t) : SameView (clearSearch s) (clearSearch t) where
  rest := congrArg Machine.clearSearch h.rest
  survivors := by simp [validSurvivors, Machine.validCount]
  subkeys := h.subkeys

/-- A keying replaces every subkey that is shown (40_cipher.md R114). -/
theorem SameView.loadKeying {s t : State} (h : SameView s t) {words : List Word} {r : Nat}
    (length : words.length = 2 * (r + 1)) : SameView (loadKeying words r s) (loadKeying words r t) where
  rest := congrArg
    (fun u : State => { Machine.loadKeying words r u with subkeyRam := words ++ s.subkeyRam.drop words.length }) h.rest
  survivors := h.survivors
  subkeys _ m hm := by
    have inWords : m < words.length := length.symm ▸ hm
    rw [subkeyWord, subkeyWord, loadKeying_subkeyRam, loadKeying_subkeyRam, List.getD_append _ _ _ _ inWords,
      List.getD_append _ _ _ _ inWords]

/-- A commit replaces every survivor that is valid afterwards (41_search.md R141). -/
theorem SameView.commit {s t : State} (h : SameView s t) (p : Phase) {r : Found} (b : Bool)
    (length : min r.count s.params.survMax ≤ r.list.length) : SameView (commit p r b s) (commit p r b t) where
  rest := congrArg (Machine.commit p r b) h.rest
  survivors := by
    rw [commit_validSurvivors p b length, commit_validSurvivors (s := t) p b (h.params ▸ length), commit_validCount,
      commit_validCount, h.params]
  subkeys := h.subkeys

/-! ### Commands -/

/-- The two outcomes are the same to the host: next states that differ in masked storage only, or one fault. -/
inductive SameOutcome : Host.Outcome State Fault Refusal → Host.Outcome State Fault Refusal → Prop where
  | next {s t : State} (view : SameView s t) : SameOutcome (.next s) (.next t)
  | fault (f : Fault) : SameOutcome (.fault f) (.fault f)

section
variable {s t : State} (h : SameView s t)
include h

theorem SameView.execKeyset : SameOutcome (execKeyset s) (execKeyset t) := by
  have key : t.key = s.key := h.congr State.key
  have rounds : t.rounds = s.rounds := h.congr State.rounds
  unfold Machine.execKeyset
  rw [h.params, key, rounds]
  split
  · exact .next (h.finish _)
  · exact .next ((h.loadKeying (keySchedule_length _ _ _ _)).finish _)

/-- The cipher reads the subkeys of the current keying only. -/
theorem SameView.cipherCommand {f : (Nat → Word) → Nat → Block → Block}
    (congr : ∀ g g' r blk, (∀ m, m < 2 * (r + 1) → g m = g' m) → f g r blk = f g' r blk) :
    SameView (cipherCommand f s) (cipherCommand f t) := by
  have din : t.din = s.din := h.congr State.din
  cases keyed : s.status.keyed with
  | false =>
    have keyed' : t.status.keyed = false := h.status ▸ keyed
    rw [cipherCommand_of_unkeyed keyed, cipherCommand_of_unkeyed keyed']
    exact h.finish _
  | true =>
    have keyed' : t.status.keyed = true := h.status ▸ keyed
    have result : f (subkeyWord t) t.rAct t.din = f (subkeyWord s) s.rAct s.din := by
      rw [h.rAct, din]
      exact (congr _ _ s.rAct s.din (h.subkeys keyed)).symm
    rw [cipherCommand_of_keyed keyed, cipherCommand_of_keyed keyed', result]
    exact (h.map (withDout_blind _)).finish _

theorem SameView.searchEnd (r : Found) : SameView (searchEnd r s) (searchEnd r t) := by
  rw [searchEnd_eq_finish, searchEnd_eq_finish, h.params]
  exact h.finish _

theorem SameView.filterEnd (r : Found) : SameView (filterEnd r s) (filterEnd r t) := by
  rw [filterEnd_eq_finish, filterEnd_eq_finish]
  exact h.finish _

theorem SameView.searchCommand (p : Phase) (f1 f2 : Word → Word) :
    SameView (searchCommand p f1 f2 s) (searchCommand p f1 f2 t) := by
  unfold Machine.searchCommand
  rw [h.params]
  exact (h.commit p true (Nat.le_of_eq (sweep_length _ f1 f2).symm)).searchEnd _

/-- A filter's operand is the valid survivors. -/
theorem SameView.filterCommand (p : Phase) (g1 g3 : Word → Word) :
    SameView (filterCommand p g1 g3 s) (filterCommand p g1 g3 t) := by
  unfold Machine.filterCommand
  rw [h.status, ← h.survivors]
  split
  · exact h.finish _
  · split
    · exact h.finish _
    · exact (h.commit p false (Nat.min_le_left _ _)).filterEnd _

theorem SameView.exec_searchInstr (p : Phase) :
    SameOutcome (exec (searchInstr p) s) (exec (searchInstr p) t) := by
  have pair1 : t.pair1 = s.pair1 := h.congr State.pair1
  have pair2 : t.pair2 = s.pair2 := h.congr State.pair2
  rw [Machine.exec_searchInstr, Machine.exec_searchInstr, h.phaseCand, h.phaseCand, pair1, pair2]
  exact .next (h.searchCommand p _ _)

theorem SameView.exec_filterInstr (p : Phase) :
    SameOutcome (exec (filterInstr p) s) (exec (filterInstr p) t) := by
  have pair1 : t.pair1 = s.pair1 := h.congr State.pair1
  have pair3 : t.pair3 = s.pair3 := h.congr State.pair3
  rw [Machine.exec_filterInstr, Machine.exec_filterInstr, h.phaseCand, h.phaseCand, pair1, pair3]
  exact .next (h.filterCommand p _ _)

theorem SameView.exec (i : Instr) : SameOutcome (exec i s) (exec i t) := by
  cases i with
  | nop => exact .next (h.finish _)
  | clear => exact .next (h.clearSearch.finish _)
  | keyset => exact h.execKeyset
  | encrypt => exact .next (h.cipherCommand encryptBlock_congr)
  | decrypt => exact .next (h.cipherCommand decryptBlock_congr)
  | search1 => exact h.exec_searchInstr .one
  | search2 => exact h.exec_searchInstr .two
  | filter1 => exact h.exec_filterInstr .one
  | filter2 => exact h.exec_filterInstr .two

theorem SameView.perform (w : Word) : SameOutcome (perform w s) (perform w t) := by
  unfold Machine.perform
  split
  · exact h.exec _
  · exact .next (h.finish _)

/-! ### The host's operations -/

theorem SameView.survEntry {n : Nat} (hn : n < Machine.validCount s) :
    survEntry t n = survEntry s n := by
  have entry {u : State} (hu : n < Machine.validCount u) :
      Machine.survEntry u n = (validSurvivors u).getD n ⟨0#32, 0#32⟩ := by
    simp only [Machine.survEntry, validSurvivors, List.getD_eq_getElem?_getD, List.getElem?_take_of_lt hu]
  rw [entry hn, entry (h.validCount.symm ▸ hn), h.survivors]

/-- Every register reads the same: the masks hide where the two differ. -/
theorem SameView.regValue (r : Reg) : regValue r t = regValue r s := by
  cases r with
  | survCand n => exact ite_congr (by rw [h.validCount]) (fun hn => by rw [h.survEntry hn]) fun _ => rfl
  | survPaired n => exact ite_congr (by rw [h.validCount]) (fun hn => by rw [h.survEntry hn]) fun _ => rfl
  | subkey m =>
    exact ite_congr (by rw [h.status, tAct, h.rAct, tAct]) (fun hm => (h.subkeys hm.1 m hm.2).symm) fun _ => rfl
  | _ => exact h.congr (Machine.regValue _)

theorem SameView.regAt (addr : Nat) : regAt t.params addr = regAt s.params addr := by
  rw [h.params]

theorem SameView.readIsFree (r : Reg) : readIsFree r t = readIsFree r s :=
  h.congr (Machine.readIsFree r)

theorem SameView.busReadValue (addr : Nat) : busReadValue addr t = busReadValue addr s := by
  unfold Machine.busReadValue
  simp only [h.params, h.env, h.readIsFree, h.regValue]

theorem SameView.recordRead (v : Word) :
    SameView { s with env := { s.env with lastRead := some v } } { t with env := { t.env with lastRead := some v } } :=
  h.map (withEnv_blind fun e => { e with lastRead := some v })

theorem SameView.countDraw : SameView (countDraw s) (countDraw t) :=
  h.map (withEnv_blind fun e => { e with draws := e.draws + 1 })

theorem SameView.busRead (addr : Nat) : SameView (busRead addr s) (busRead addr t) := by
  have read := h.recordRead (Machine.busReadValue addr s)
  unfold Machine.busRead
  rw [h.busReadValue, h.regAt]
  dsimp only
  split
  · rw [h.readIsFree]
    split
    · exact read.countDraw
    · exact read
  · exact read

theorem SameView.busWrite (addr : Nat) (v : Word) : SameView (busWrite addr v s) (busWrite addr v t) := by
  unfold Machine.busWrite
  rw [h.busyBit, h.regAt]
  split
  · exact h.map setOverrun_blind
  · split
    · exact h.map (writeReg_blind _ v)
    · exact h

theorem SameView.resetBlock : resetBlock t = resetBlock s :=
  h.congr Machine.resetBlock

theorem SameView.hostCheck (addr : Nat) (mask want : Word) :
    SameOutcome (hostCheck addr mask want s) (hostCheck addr mask want t) := by
  unfold Machine.hostCheck
  rw [h.busReadValue addr]
  split
  · exact .fault _
  · split
    · exact .next (h.busRead addr)
    · exact .fault _

theorem SameView.hostWait : SameOutcome (hostWait s) (hostWait t) := by
  unfold Machine.hostWait
  rw [h.busyBit]
  split
  · exact .next ((h.map (withEnv_blind fun e => { e with hostOps := .waitIdle :: e.hostOps })).busRead _)
  · exact .next (h.busRead _)

theorem SameView.hostOp (op : HostOp) : SameOutcome (hostOp op s) (hostOp op t) := by
  cases op with
  | read addr width =>
    simp only [Machine.hostOp, hostRead]
    split
    · exact .fault _
    · exact .next (h.busRead addr)
  | write addr width v =>
    simp only [Machine.hostOp, hostWrite]
    split
    · exact .fault _
    · exact .next (h.busWrite addr v)
  | check addr mask want => exact h.hostCheck addr mask want
  | waitIdle => exact h.hostWait
  | idle => exact .next h
  | reset => exact .next (h.resetBlock ▸ SameView.refl _)

/-! ### Steps -/

theorem SameView.passTurn : SameView (passTurn s) (passTurn t) :=
  h.map (withEnv_blind fun e => { e with wait := e.wait - 1, hostOps := e.hostOps.tail })

theorem SameView.hostTurn : SameOutcome (hostTurn s) (hostTurn t) := by
  unfold Machine.hostTurn
  rw [h.env]
  split
  · exact .next h.passTurn
  · exact h.passTurn.hostOp _

theorem SameView.step : SameOutcome (step s) (step t) := by
  unfold Machine.step
  rw [h.engineReady]
  split
  · exact h.perform _
  · exact h.hostTurn

end

/-- Settles O58: step by step the two outcomes are the same to the host. -/
theorem maskedStorageUnobservable : Obligations.MaskedStorageUnobservable := by
  intro s t h
  have same := h.step
  constructor
  · intro s' hs
    rw [hs] at same
    generalize step t = o at same
    cases same with
    | next view => exact ⟨_, rfl, view⟩
  · intro f hs
    rw [hs] at same
    generalize step t = o at same
    cases same with
    | fault => rfl

end Sys2Proof.Machine
end

section
/-! PROOF. Encryption and decryption invert each other (40_cipher.md R105, R112), and so do the commands ENCRYPT and
DECRYPT with DOUT copied to DIN between them (O24). -/

namespace Sys2Proof.Machine

/-! ### Rotations -/

theorem rotateRight_rotateLeft {w : Nat} (x : BitVec w) (r : Nat) : (x.rotateLeft r).rotateRight r = x := by
  refine BitVec.eq_of_getLsbD_eq fun i hi => ?_
  have amount : r % w < w := Nat.mod_lt r (Nat.zero_lt_of_lt hi)
  rw [BitVec.getLsbD_rotateRight]
  by_cases low : i < w - r % w
  · have kept : ¬ r % w + i < r % w := by omega
    have inside : r % w + i < w := by omega
    simp [BitVec.getLsbD_rotateLeft, low, kept, inside, BitVec.getLsbD_eq_getElem hi]
  · have wrapped : i - (w - r % w) < r % w := by omega
    have back : w - r % w + (i - (w - r % w)) = i := by omega
    simp [BitVec.getLsbD_rotateLeft, low, hi, wrapped, back]

theorem rotateLeft_rotateRight {w : Nat} (x : BitVec w) (r : Nat) : (x.rotateRight r).rotateLeft r = x := by
  refine BitVec.eq_of_getLsbD_eq fun i hi => ?_
  have amount : r % w < w := Nat.mod_lt r (Nat.zero_lt_of_lt hi)
  rw [BitVec.getLsbD_rotateLeft]
  by_cases low : i < r % w
  · have kept : ¬ w - r % w + i < w - r % w := by omega
    have inside : w - r % w + i < w := by omega
    simp [BitVec.getLsbD_rotateRight, low, kept, inside, BitVec.getLsbD_eq_getElem hi]
  · have wrapped : i - r % w < w - r % w := by omega
    have back : r % w + (i - r % w) = i := by omega
    simp [BitVec.getLsbD_rotateRight, low, hi, wrapped, back]

@[simp] theorem rotr_rotl (x n : Word) : rotr (rotl x n) n = x := by
  rw [rotr_eq_rotateRight, rotl_eq_rotateLeft, rotateRight_rotateLeft]

@[simp] theorem rotl_rotr (x n : Word) : rotl (rotr x n) n = x := by
  rw [rotr_eq_rotateRight, rotl_eq_rotateLeft, rotateLeft_rotateRight]

/-! ### Rounds and blocks -/

theorem decryptRound_encryptRound (sub : Nat → Word) (i : Nat) (blk : Block) :
    decryptRound sub i (encryptRound sub i blk) = blk := by
  simp [decryptRound, encryptRound]

theorem encryptRound_decryptRound (sub : Nat → Word) (i : Nat) (blk : Block) :
    encryptRound sub i (decryptRound sub i blk) = blk := by
  simp [decryptRound, encryptRound]

/-- Decryption takes the rounds off from the last one down. -/
theorem decryptRounds_encryptRounds (sub : Nat → Word) (r : Nat) (blk : Block) :
    decryptRounds sub r (encryptRounds sub r blk) = blk := by
  induction r with
  | zero => rfl
  | succ r ih => rw [decryptRounds, encryptRounds, decryptRound_encryptRound, ih]

theorem encryptRounds_decryptRounds (sub : Nat → Word) (r : Nat) (blk : Block) :
    encryptRounds sub r (decryptRounds sub r blk) = blk := by
  induction r generalizing blk with
  | zero => rfl
  | succ r ih => rw [decryptRounds, encryptRounds, ih, encryptRound_decryptRound]

theorem decryptBlock_encryptBlock (sub : Nat → Word) (r : Nat) (blk : Block) :
    decryptBlock sub r (encryptBlock sub r blk) = blk := by
  simp [decryptBlock, encryptBlock, decryptRounds_encryptRounds]

theorem encryptBlock_decryptBlock (sub : Nat → Word) (r : Nat) (blk : Block) :
    encryptBlock sub r (decryptBlock sub r blk) = blk := by
  simp only [decryptBlock, encryptBlock, BitVec.sub_add_cancel]
  exact encryptRounds_decryptRounds sub r blk

/-! ### The commands -/

/-- Two word writes lay a block into DIN (20_memory.md R65). -/
theorem busWrite_din {s : State} (idle : s.pend = none) (blk : Block) :
    busWrite 0x034 blk.b (busWrite 0x030 blk.a s) = { s with din := blk } := by
  have first : busWrite 0x030 blk.a s = writeReg .dinA blk.a s := busWrite_named (r := .dinA) (by decide) idle blk.a
  rw [first]
  exact busWrite_named (r := .dinB) (by decide) (s := writeReg .dinA blk.a s) idle blk.b

/-- A block command on the output of one it inverts gives that one's input back, and completes without an error. -/
theorem cipherCommand_undoes {f g : (Nat → Word) → Nat → Block → Block}
    (inverse : ∀ sub r blk, g sub r (f sub r blk) = blk) {s : State} (keyed : s.status.keyed = true) :
    ∃ u, cipherCommand g (busWrite 0x034 (cipherCommand f s).dout.b
        (busWrite 0x030 (cipherCommand f s).dout.a (cipherCommand f s))) = u ∧
      u.dout = s.din ∧ u.status.errcode = 0x0#4 := by
  rw [cipherCommand_of_keyed keyed f, busWrite_din (finish_pend _ _)]
  refine ⟨_, cipherCommand_of_keyed ?_ g, inverse (subkeyWord s) s.rAct s.din, rfl⟩
  exact keyed

/-- Settles O24: each command inverts the other on blocks, and the keying is the same for both. -/
theorem decryptCommandUndoesEncrypt : Obligations.DecryptCommandUndoesEncrypt := by
  intro s keyed
  constructor
  · obtain ⟨u, hu, back⟩ := cipherCommand_undoes decryptBlock_encryptBlock keyed
    exact ⟨_, u, rfl, congrArg _ hu, back⟩
  · obtain ⟨u, hu, back⟩ := cipherCommand_undoes encryptBlock_decryptBlock keyed
    exact ⟨_, u, rfl, congrArg _ hu, back⟩

end Sys2Proof.Machine
end

section
/-! PROOF. The host's accesses of the register window: unsupported ones fault (O45), a read changes nothing of the block
(O41), a write follows the register's access column (O40), reserved offsets and bits read 0 and ignore writes (O42). -/

namespace Sys2Proof.Machine

/-! ### The host's turn -/

theorem step_host {s : State} {op : HostOp} (h : HostNext s op) : step s = hostOp op (passTurn s) := by
  obtain ⟨turn, next⟩ := h
  obtain ⟨rest, ops⟩ := List.head?_eq_some_iff.1 next
  rw [step, turn, hostTurn, ops]

theorem accessFault_supported {addr : Nat} (aligned : addr % 4 = 0) (inside : addr < 0x1000) :
    accessFault addr 4 = none :=
  (accessFault_none_iff addr 4).2 ⟨inside, rfl, aligned⟩

theorem accessFault_unsupported {addr width : Nat} (inside : addr < 0x1000) (bad : addr % 4 ≠ 0 ∨ width ≠ 4) :
    accessFault addr width = some (.unsupportedAccess addr width) := by
  rw [accessFault, windowBytes, if_neg (Nat.not_le.2 inside), if_pos bad.symm]

/-- Settles O45: the access faults in the host's turn, before anything is read or written. -/
theorem unsupportedAccessFaultsHost : Obligations.UnsupportedAccessFaultsHost := by
  intro s addr n v inside bad
  have fault := accessFault_unsupported inside bad
  constructor
  · intro h
    rw [step_host h, hostOp, hostRead, fault]
  · intro h
    rw [step_host h, hostOp, hostWrite, fault]

section
variable {s : State} {addr : Nat} (aligned : addr % 4 = 0) (inside : addr < 0x1000)
include aligned inside

theorem step_read (h : HostNext s (.read addr 4)) : step s = .next (busRead addr (passTurn s)) := by
  rw [step_host h, hostOp, hostRead, accessFault_supported aligned inside]

theorem step_write {v : Word} (h : HostNext s (.write addr 4 v)) :
    step s = .next (busWrite addr v (passTurn s)) := by
  rw [step_host h, hostOp, hostWrite, accessFault_supported aligned inside]

end

/-! ### Reads -/

/-- A register outside the list and the windows of 20_memory.md R69 is not VOLATILE. -/
theorem regVolatile_eq_false {r : Reg}
    (single : r ∉ [Reg.doutA, .doutB, .survCount, .resS0, .resS1, .resS2, .resS3])
    (window : ∀ n, r ≠ .survCand n ∧ r ≠ .survPaired n ∧ r ≠ .subkey n) : regVolatile r = false := by
  cases r with
  | survCand n => exact absurd rfl (window n).1
  | survPaired n => exact absurd rfl (window n).2.1
  | subkey n => exact absurd rfl (window n).2.2
  | doutA | doutB | survCount | resS0 | resS1 | resS2 | resS3 => exact absurd (by decide) single
  | _ => rfl

theorem regValue_passTurn (r : Reg) (s : State) : regValue r (passTurn s) = regValue r s := by
  cases r <;> rfl

/-- Settles O41: the host's turn and the read both leave the block alone, and the data is the bus's read value. -/
theorem hostReadRules : Obligations.HostReadRules := by
  intro s addr h aligned inside
  refine ⟨busRead addr (passTurn s), step_read aligned inside h, ?_, busRead_hostOps addr _,
    ⟨_, busRead_lastRead addr _⟩, ?_, ?_⟩
  · obtain ⟨e, he⟩ := busRead_eq_env addr (passTurn s)
    rw [SameBlock, he]
    rfl
  · intro reserved
    rw [busRead_lastRead, busReadValue_reserved (s := passTurn s) reserved]
  · intro r hr definite
    have notFree : readIsFree r (passTurn s) = false := by
      obtain idle | ⟨single, window⟩ := definite
      · exact readIsFree_of_idle idle r
      · exact readIsFree_of_stable (regVolatile_eq_false single window) _
    rw [busRead_lastRead, busReadValue_of_exact (s := passTurn s) hr notFree, regValue_passTurn]

/-! ### What a write of one register does -/

/-- Of all registers a RW register's write shows in its own read only, and there at once (20_memory.md R70). -/
theorem regValue_writeReg {r : Reg} (hr : r ∈ rwRegs) (r' : Reg) (v : Word) (s : State) :
    regValue r' (writeReg r v s) = if r' = r then v else regValue r' s := by
  cases r with
  | survCand | survPaired | subkey => simp [rwRegs] at hr
  | id | params | cmd | status | intEn | survCount | doutA | doutB => exact absurd hr (by decide)
  | _ => cases r' <;> rfl

theorem writeReg_status {r : Reg} (notCmd : r ≠ .cmd) (notStatus : r ≠ .status) (v : Word) (s : State) :
    (writeReg r v s).status = s.status := by
  cases r with
  | cmd => exact absurd rfl notCmd
  | status => exact absurd rfl notStatus
  | _ => rfl

theorem writeReg_env {r : Reg} (notCmd : r ≠ .cmd) (v : Word) (s : State) : (writeReg r v s).env = s.env := by
  cases r with
  | cmd => exact absurd rfl notCmd
  | _ => rfl

theorem writeReg_readOnly {r : Reg} (notSpecial : r ∉ [Reg.cmd, .status, .intEn]) (notRw : r ∉ rwRegs) (v : Word)
    (s : State) : writeReg r v s = s := by
  cases r with
  | id | params | survCount | doutA | doutB | survCand | survPaired | subkey => rfl
  | cmd | status | intEn => exact absurd (by decide) notSpecial
  | _ => exact absurd (by decide) notRw

theorem writeStatus_eq_ite (v : Word) (s : State) : writeStatus v s =
    { s with
      status :=
        { s.status with
          done := if v.getLsbD 1 = true then false else s.status.done
          overrun := if v.getLsbD 6 = true then false else s.status.overrun } } := by
  have clears (b c : Bool) : (b && !c) = if c = true then false else b := by cases c <;> simp
  simp only [writeStatus, clears]

theorem mem_namedRegs_of_mem_rwRegs : ∀ r ∈ rwRegs, r ∈ namedRegs := by decide

/-! ### Host writes -/

theorem busWrite_rw {s : State} (idle : s.pend = none) {r : Reg} (hr : r ∈ rwRegs) (v : Word) :
    busWrite (regOffset r) v s = writeReg r v s :=
  busWrite_named (mem_namedRegs_of_mem_rwRegs r hr) idle v

/-- An offset that names no writable register ignores the write: it is reserved, or its register is read-only. -/
theorem busWrite_ignored {s : State} (idle : s.pend = none) {addr : Nat}
    (notSpecial : addr ∉ [Reg.cmd, .status, .intEn].map regOffset) (notRw : addr ∉ rwRegs.map regOffset) (v : Word) :
    busWrite addr v s = s := by
  have ready := (busyBit_eq_false_iff s).2 idle
  cases hr : regAt s.params addr with
  | none => exact busWrite_reserved ready hr v
  | some r =>
    rw [busWrite_idle ready hr]
    obtain ⟨rfl, -⟩ := regAt_some hr
    exact writeReg_readOnly (mt List.mem_map_of_mem notSpecial) (mt List.mem_map_of_mem notRw) v s

/-- Settles O40: the write is the bus's after the turn has passed, and each clause is one kind of offset. -/
theorem hostWriteRules : Obligations.HostWriteRules := by
  intro s addr v h aligned inside
  have write := step_write aligned inside h
  refine ⟨?_, ?_, ?_, ?_, ?_, ?_⟩
  · intro busy
    rw [write, busWrite_busy ((busyBit_eq_true_iff (passTurn s)).2 busy)]
    rfl
  · rintro idle rfl
    exact ⟨_, write.trans (congrArg _ (busWrite_named (r := .cmd) (s := passTurn s) (by decide) idle v)), rfl⟩
  · rintro idle rfl
    refine write.trans (congrArg _ ?_)
    exact (busWrite_named (r := .status) (s := passTurn s) (by decide) idle v).trans (writeStatus_eq_ite v _)
  · rintro idle rfl
    exact write.trans (congrArg _ (busWrite_named (r := .intEn) (s := passTurn s) (by decide) idle v))
  · rintro r hr idle rfl
    have notCmd : r ≠ .cmd := fun e => absurd (e ▸ hr) (by decide)
    have notStatus : r ≠ .status := fun e => absurd (e ▸ hr) (by decide)
    obtain ⟨ram, rAct, -, -, surv, -⟩ := writeReg_sameResults r v (passTurn s)
    refine ⟨_, write.trans (congrArg _ (busWrite_rw (s := passTurn s) idle hr v)), ?_, ?_, ram, surv, rAct,
      writeReg_pend notCmd v _, writeReg_status notCmd notStatus v _, writeReg_env notCmd v _⟩
    · rw [regValue_writeReg hr, if_pos rfl]
    · intro r' other
      rw [regValue_writeReg hr, if_neg other, regValue_passTurn]
  · intro idle notSpecial notRw
    exact write.trans (congrArg _ (busWrite_ignored (s := passTurn s) idle notSpecial notRw v))

/-! ### Reserved offsets and bits -/

theorem regOffset_lt_of_mem_namedRegs : ∀ r ∈ namedRegs, regOffset r < 0x080 := by decide

/-- No register has a reserved offset (10_state.md R51). -/
theorem regAt_reserved {c : Params} (legal : c.Legal) {addr : Nat} (reserved : reservedOffset c addr) :
    regAt c addr = none := by
  have survMax_le := legal.survMax_le
  obtain rfl | ⟨above, below⟩ | ⟨above, below⟩ | ⟨n, free, slot, rfl | rfl⟩ | ⟨m, free, -, rfl⟩ := reserved
  · exact regAt_of_lt (by decide) c
  · rw [regAt_of_lt below, List.find?_eq_none]
    intro r hr here
    have := regOffset_lt_of_mem_namedRegs r hr
    rw [eq_of_beq here] at this
    omega
  · rw [regAt, if_neg (by omega), if_neg (by omega), if_neg (by omega)]
  · exact regAt_survCand_reserved free slot
  · exact regAt_survPaired_reserved free slot
  · exact regAt_subkey_reserved survMax_le free

theorem busWrite_readOnly {s : State} (legal : s.params.Legal) (idle : s.pend = none) {r : Reg}
    (mine : r.inBlock s.params) (notSpecial : r ∉ [Reg.cmd, .status, .intEn]) (notRw : r ∉ rwRegs) (v : Word) :
    busWrite (regOffset r) v s = s := by
  rw [busWrite_idle ((busyBit_eq_false_iff s).2 idle) (regAt_regOffset legal.survMax_le mine),
    writeReg_readOnly notSpecial notRw]

theorem intEnWord_reserved (s : State) : (intEnWord s).extractLsb' 1 31 = 0#31 := by
  refine BitVec.eq_of_getLsbD_eq fun k hk => ?_
  rw [BitVec.getLsbD_extractLsb', intEnWord, atBit_bool_getLsbD _ _ (by omega)]
  simp

theorem writeStatus_congr {v w : Word} (bit1 : v.getLsbD 1 = w.getLsbD 1) (bit6 : v.getLsbD 6 = w.getLsbD 6)
    (s : State) : writeStatus v s = writeStatus w s := by
  rw [writeStatus, writeStatus, bit1, bit6]

/-- Settles O42: no register has a reserved offset, a read-only register's write is the identity, and the writes of
STATUS and INT_EN look at their own bits only. -/
theorem reservedReadZeroIgnoreWrites : Obligations.ReservedReadZeroIgnoreWrites := by
  refine ⟨?_, ?_, ?_, ?_⟩
  · intro s addr legal _ reserved
    have unnamed := regAt_reserved legal reserved
    exact ⟨busReadValue_reserved unnamed,
      fun v idle => busWrite_reserved ((busyBit_eq_false_iff s).2 idle) unnamed v⟩
  · intro s r v legal idle readOnly
    have facts : r.inBlock s.params ∧ r ∉ [Reg.cmd, .status, .intEn] ∧ r ∉ rwRegs := by
      obtain single | ⟨n, ⟨rfl, hn⟩ | ⟨rfl, hn⟩ | ⟨rfl, hn⟩⟩ := readOnly
      · have named : ∀ q ∈ [Reg.id, .params, .survCount, .doutA, .doutB],
            q ∈ namedRegs ∧ q ∉ [Reg.cmd, .status, .intEn] ∧ q ∉ rwRegs := by decide
        exact ⟨inBlock_of_mem_namedRegs _ (named r single).1, (named r single).2⟩
      all_goals exact ⟨hn, by simp, by simp [rwRegs]⟩
    obtain ⟨mine, notSpecial, notRw⟩ := facts
    exact busWrite_readOnly legal idle mine notSpecial notRw v
  · intro s
    obtain ⟨-, -, -, -, -, -, -, -, -, -, -, reserved⟩ := statusWordLayout.2 s
    exact ⟨reserved, intEnWord_reserved s⟩
  · intro s v w idle
    have intEn (u : Word) : busWrite 0x010 u s = writeIntEn u s := busWrite_named (r := .intEn) (by decide) idle u
    have status (u : Word) : busWrite 0x00C u s = writeStatus u s := busWrite_named (r := .status) (by decide) idle u
    constructor
    · intro bit0
      rw [intEn, intEn, writeIntEn, writeIntEn, bit0]
    · intro bit1 bit6
      rw [status, status, writeStatus_congr bit1 bit6]

end Sys2Proof.Machine
end

section
/-! PROOF. Command words and host statements: the decoder and the encoder agree on words and on bytes (O1, O2, O3), a step
performs the word that is pending (O4, O5), and the host assembler's statements run (O51). -/

namespace Sys2Proof.Machine

/-! ### The decoder on words -/

theorem encode_fields : ∀ i : Instr, opField (encode i) = opcode i ∧ rsvField (encode i) = 0#24
  | .nop => Laws.EncodeFields.nop
  | .keyset => Laws.EncodeFields.keyset
  | .encrypt => Laws.EncodeFields.encrypt
  | .decrypt => Laws.EncodeFields.decrypt
  | .search1 => Laws.EncodeFields.search1
  | .filter1 => Laws.EncodeFields.filter1
  | .search2 => Laws.EncodeFields.search2
  | .filter2 => Laws.EncodeFields.filter2
  | .clear => Laws.EncodeFields.clear

/-- A word is its two fields (30_encoding.md R81). -/
theorem word_eq_of_fields {v w : Word} (op : opField v = opField w) (rsv : rsvField v = rsvField w) : v = w :=
  BitVec.eq_of_toNat_eq (by rw [word_toNat_eq_fields, word_toNat_eq_fields w, op, rsv])

theorem decode_eq_ok_iff_eq_encode (v : Word) (i : Instr) : decode v = .ok i ↔ v = encode i :=
  ⟨eq_encode_of_decode, fun h => h ▸ decode_encode i⟩

/-- The decode function by its two fields (R85): RSV is 0, and OP is the command's opcode. -/
theorem decode_eq_ok_iff_fields (v : Word) (i : Instr) :
    decode v = .ok i ↔ rsvField v = 0#24 ∧ opField v = opcode i := by
  obtain ⟨op, rsv⟩ := encode_fields i
  rw [decode_eq_ok_iff_eq_encode]
  constructor
  · rintro rfl
    exact ⟨rsv, op⟩
  · rintro ⟨hrsv, hop⟩
    exact word_eq_of_fields (hop.trans op.symm) (hrsv.trans rsv.symm)

/-- A word is ILLEGAL by its reserved bits or by an OP outside the map (R83). -/
theorem decode_illegal_iff (v : Word) :
    (∃ e, decode v = .error e) ↔ (rsvField v ≠ 0#24 ∨ ∀ i, opField v ≠ opcode i) := by
  have illegal : (∃ e, decode v = .error e) ↔ ∀ i, decode v ≠ .ok i := by
    cases decode v <;> simp
  rw [illegal, or_iff_not_imp_left]
  simp only [ne_eq, decode_eq_ok_iff_fields, not_and, not_not]
  exact forall_comm

/-- The opcode map has no opcode but these (R82). -/
theorem opcode_mem (i : Instr) :
    opcode i ∈ [0x00#8, 0x01#8, 0x02#8, 0x03#8, 0x10#8, 0x11#8, 0x12#8, 0x13#8, 0x20#8] := by
  cases i <;> decide

/-- Settles O2: a word decodes to a command by its two fields, and is refused where no command has them. -/
theorem decodeTotalByCases : Obligations.DecodeTotalByCases := by
  intro v
  refine ⟨fun reserved => (decode_illegal_iff v).2 (.inl reserved), fun rsv => ?_⟩
  have legal (i : Instr) (op : opField v = opcode i) : decode v = .ok i :=
    (decode_eq_ok_iff_fields v i).2 ⟨rsv, op⟩
  refine ⟨legal .nop, legal .keyset, legal .encrypt, legal .decrypt, legal .search1, legal .filter1, legal .search2,
    legal .filter2, legal .clear, fun unlisted => (decode_illegal_iff v).2 (.inr fun i op => unlisted ?_)⟩
  exact (op ▸ opcode_mem i :)

/-- Settles O3: the legal words are encodings, and the other two are refused by one field each. -/
theorem sampleCommandWordsDecode : Obligations.SampleCommandWordsDecode :=
  ⟨decode_encode .nop, decode_encode .decrypt, decode_encode .search1, decode_encode .filter2, decode_encode .clear,
    rfl, rfl⟩

/-! ### The decoder on bytes -/

/-- The byte lanes of a word laid out of four bytes are these bytes (00_scope.md R15). -/
theorem bytesLe32_le32 (b0 b1 b2 b3 : Byte) : bytesLe32 (le32 b0 b1 b2 b3) = [b0, b1, b2, b3] := by
  have lane (b : Byte) (k : Nat) (h : (le32 b0 b1 b2 b3).toNat / 2 ^ k % 256 = b.toNat) :
      (le32 b0 b1 b2 b3).extractLsb' k 8 = b :=
    BitVec.eq_of_toNat_eq (by rw [BitVec.extractLsb'_toNat, Nat.shiftRight_eq_div_pow, h])
  have value : (le32 b0 b1 b2 b3).toNat = b0.toNat + 2 ^ 8 * b1.toNat + 2 ^ 16 * b2.toNat + 2 ^ 24 * b3.toNat := by
    rw [le32, BitVec.toNat_ofNat]
    omega
  rw [bytesLe32, lane b0 0 (by omega), lane b1 8 (by omega), lane b2 16 (by omega), lane b3 24 (by omega)]

theorem le32_lanes (w : Word) :
    le32 (w.extractLsb' 0 8) (w.extractLsb' 8 8) (w.extractLsb' 16 8) (w.extractLsb' 24 8) = w := by
  refine BitVec.eq_of_toNat_eq ?_
  simp only [le32, BitVec.toNat_ofNat, BitVec.extractLsb'_toNat, Nat.shiftRight_eq_div_pow]
  omega

theorem decodeBytes_bytesLe32 (w : Word) (rest : List Byte) :
    decodeBytes (bytesLe32 w ++ rest) = (decode w).map fun i => (i, rest) := by
  simp only [bytesLe32, List.cons_append, List.nil_append, decodeBytes, le32_lanes]
  cases decode w <;> rfl

/-- Bytes that decode are the lanes of a word that does, with the rest after them. -/
theorem exists_word_of_decodeBytes {bytes rest : List Byte} {i : Instr} (h : decodeBytes bytes = .ok (i, rest)) :
    ∃ w, bytes = bytesLe32 w ++ rest ∧ decode w = .ok i := by
  unfold decodeBytes at h
  split at h
  · next b0 b1 b2 b3 tail =>
    split at h
    · next hw =>
      cases h
      exact ⟨_, by rw [bytesLe32_le32]; rfl, hw⟩
    · cases h
  · cases h

/-- Settles O1: on words by the two directions of the decoder, on bytes by the lanes of the word. -/
theorem decodeInvertsEncode : Obligations.DecodeInvertsEncode := by
  refine ⟨decode_eq_ok_iff_eq_encode, fun bytes i rest => ⟨fun h => ?_, ?_⟩⟩
  · obtain ⟨w, rfl, hw⟩ := exists_word_of_decodeBytes h
    rw [eq_encode_of_decode hw]
  · rintro rfl
    rw [decodeBytes_bytesLe32, decode_encode]
    rfl

/-! ### The pending command word -/

theorem tableWord_toNat (w : Word) : tableWord 32 w.toNat = w := by
  rw [tableWord, Nat.mod_eq_of_lt w.isLt, BitVec.ofNat_toNat, BitVec.setWidth_eq]

theorem placeCommand_engineNext (w : Word) (s : State) : EngineNext (placeCommand w s) w := ⟨rfl, rfl⟩

/-- Settles O4: the engine's turn performs PEND, and a placed command is PEND with its latency passed. -/
theorem stepPerformsPendingCommand : Obligations.StepPerformsPendingCommand := by
  constructor
  · intro s w i engine hw _
    rw [step_engine engine, eq_encode_of_decode hw, perform_encode]
  · intro s i
    rw [State.withFetchWord, tableWord_toNat, step_engine (placeCommand_engineNext _ s), perform_encode]

theorem perform_illegal {w : Word} (h : ∃ e, decode w = .error e) (s : State) :
    perform w s = .next (raiseError .illegal s) := by
  obtain ⟨e, he⟩ := h
  rw [perform, he]

/-- The ranges of R83 leave out every opcode of the map. -/
theorem opcode_not_in_illegal_ranges (i : Instr) :
    ¬ ((0x04 ≤ (opcode i).toNat ∧ (opcode i).toNat ≤ 0x0F) ∨ (0x14 ≤ (opcode i).toNat ∧ (opcode i).toNat ≤ 0x1F) ∨
      (0x21 ≤ (opcode i).toNat ∧ (opcode i).toNat ≤ 0xFF)) := by
  cases i <;> decide

/-- Settles O5: acceptance does not look at the word, and no command has the fields of an illegal one. -/
theorem illegalWordReportsIllegalOnly : Obligations.IllegalWordReportsIllegalOnly := by
  intro v fields
  constructor
  · intro s idle
    exact ⟨_, busWrite_named (r := .cmd) (by decide) idle v⟩
  · intro s engine
    have illegal : ∃ e, decode v = .error e :=
      (decode_illegal_iff v).2 (fields.imp_right fun range i op =>
        opcode_not_in_illegal_ranges i (op ▸ range))
    rw [step_engine engine, perform_illegal illegal]
    rfl

/-! ### Host statements -/

theorem accessWf_iff_accessFault (addr width : Nat) :
    accessWf addr width = true ↔ accessFault addr width = none := by
  rw [accessFault_none_iff]
  simp only [accessWf, Bool.and_eq_true, decide_eq_true_eq]
  tauto

/-- Every register of the map has the offset of an access the block supports (20_memory.md R60, R62). -/
theorem accessWf_regOffset {r : Reg} (h : r.wf = true) : accessWf (regOffset r) 4 = true := by
  cases r with
  | survCand n | survPaired n | subkey n =>
    have slot := of_decide_eq_true h
    simp only [survSlots, subkeySlots] at slot
    rw [accessWf_iff_accessFault, regOffset]
    exact accessFault_supported (by omega) (by omega)
  | _ => rfl

theorem expandStmt_all_wf {st : HostStmt} (h : st.wf = true) : (expandStmt st).all HostOp.wf = true := by
  cases st with
  | wr r | rd r | rdEq r => exact (Bool.and_true _).trans (accessWf_regOffset h)
  | ldpair q => cases q <;> rfl
  | _ => rfl

theorem sameBlock_withEnv (s : State) (e : Env) : SameBlock s { s with env := e } := rfl

theorem SameBlock.busRead {s t : State} (h : SameBlock s t) (addr : Nat) : SameBlock s (busRead addr t) := by
  obtain ⟨e, he⟩ := busRead_eq_env addr t
  rw [SameBlock, he]
  exact h

/-- The host's operations after a WAIT: the WAIT again while BUSY is 1 (30_encoding.md R89). -/
def opsAfterWait (s : State) : List HostOp :=
  if s.pend = none then s.env.hostOps else .waitIdle :: s.env.hostOps

/-- WAIT is one read of STATUS, idle and busy. -/
theorem hostWait_eq (s : State) : hostWait s =
    .next (busRead (regOffset .status) { s with env := { s.env with hostOps := opsAfterWait s } }) := by
  unfold hostWait opsAfterWait
  by_cases idle : s.pend = none
  · rw [if_neg (Bool.eq_false_iff.1 ((busyBit_eq_false_iff s).2 idle)), if_pos idle]
  · rw [if_pos ((busyBit_eq_true_iff s).2 idle), if_neg idle]

theorem opsAfterWait_passTurn {s : State} (h : HostNext s .waitIdle) :
    opsAfterWait (passTurn s) = if s.pend = none then s.env.hostOps.tail else s.env.hostOps := by
  obtain ⟨rest, ops⟩ := List.head?_eq_some_iff.1 h.2
  simp only [opsAfterWait, passTurn, ops, List.tail_cons]

/-- A checked read of a register of an idle block, by the register's own value (R88, R89). -/
theorem hostCheck_idle {s : State} {r : Reg} (idle : s.pend = none) (named : r.wf = true)
    (here : regAt s.params (regOffset r) = some r) (mask want : Word) : hostCheck (regOffset r) mask want s =
      if regValue r s &&& mask = want then .next (busRead (regOffset r) s)
      else .fault (.hostCheckFailed (regOffset r) (regValue r s) want) := by
  rw [hostCheck, (accessWf_iff_accessFault _ _).1 (accessWf_regOffset named),
    busReadValue_of_exact here (readIsFree_of_idle idle r)]

/-- Settles O51: the expansions access registers of the map, WAIT is one read of STATUS, and an idle checked read compares
the register's value. -/
theorem hostStatementsRun : Obligations.HostStatementsRun := by
  refine ⟨fun st wf => List.all_eq_true.1 (expandStmt_all_wf wf), ?_, ?_⟩
  · intro s h
    refine ⟨_, (step_host h).trans (hostWait_eq _), SameBlock.busRead (sameBlock_withEnv s _) _, ?_, ?_⟩
    · rw [busRead_lastRead, busReadValue_stable (by decide) rfl]
      rfl
    · rw [busRead_hostOps]
      exact opsAfterWait_passTurn h
  · intro s r mask want h idle named here
    have run := (step_host h).trans (hostCheck_idle (s := passTurn s) idle named here mask want)
    rw [regValue_passTurn] at run
    constructor
    · intro agrees
      exact ⟨_, run.trans (if_pos agrees), SameBlock.busRead (sameBlock_withEnv s _) _, busRead_hostOps _ _⟩
    · intro differs
      exact run.trans (if_neg differs)

end Sys2Proof.Machine
end

section
/-! PROOF. The rotations by the low five bits of the amount, and bit by bit (O11), and the laws between them (O12). -/

namespace Sys2Proof.Machine

theorem rotl_eq_formula (x n : Word) : rotl x n =
    if n.toNat % 32 = 0 then x else (x <<< (n.toNat % 32)) ||| (x >>> (32 - n.toNat % 32)) := by
  rw [rotl, rotAmount_eq]

theorem rotr_eq_formula (x n : Word) : rotr x n =
    if n.toNat % 32 = 0 then x else (x >>> (n.toNat % 32)) ||| (x <<< (32 - n.toNat % 32)) := by
  rw [rotr, rotAmount_eq]

/-- A right rotation moves each bit down by the amount, the low bits round to the top (40_cipher.md R104). -/
theorem rotr_getLsbD (x n : Word) {k : Nat} (hk : k < 32) :
    (rotr x n).getLsbD k = x.getLsbD ((k + n.toNat % 32) % 32) := by
  rw [rotr_eq_rotateRight, BitVec.getLsbD_rotateRight]
  by_cases stays : k < 32 - n.toNat % 32
  · have source : (k + n.toNat % 32) % 32 = n.toNat % 32 + k := by omega
    rw [cond_eq_ite, if_pos (decide_eq_true stays), source]
  · have source : (k + n.toNat % 32) % 32 = k - (32 - n.toNat % 32) := by omega
    rw [cond_eq_ite, if_neg (by simpa using stays), source, decide_eq_true hk, Bool.true_and]

/-- A left rotation moves each bit up by the amount, the top bits round to the low end (R103): the right rotation moves
them back. -/
theorem rotl_getLsbD (x n : Word) {k : Nat} (hk : k < 32) :
    (rotl x n).getLsbD ((k + n.toNat % 32) % 32) = x.getLsbD k := by
  rw [← rotr_getLsbD (rotl x n) n hk, rotr_rotl]

/-- Settles O11: the formulas are the model's own, and the right rotation, known bit by bit, undoes the left one. -/
theorem rotationsByLowFiveBits : Obligations.RotationsByLowFiveBits := by
  refine ⟨fun x n => ⟨rotl_eq_formula x n, rotr_eq_formula x n, fun k hk => ?_⟩, ?_⟩
  · exact ⟨rotl_getLsbD x n hk, rotr_getLsbD x n hk⟩
  · decide

/-- Amounts that add up to a multiple of 32 rotate to the same word, one to the left and one to the right. -/
theorem rotl_eq_rotr_of_amounts (x : Word) {n m : Word} (h : (n.toNat + m.toNat) % 32 = 0) :
    rotl x n = rotr x m := by
  refine BitVec.eq_of_getLsbD_eq fun k hk => ?_
  have source : ((k + m.toNat % 32) % 32 + n.toNat % 32) % 32 = k := by omega
  have moved := rotl_getLsbD x n (Nat.mod_lt (k + m.toNat % 32) (by decide : 0 < 32))
  rw [rotr_getLsbD x m hk, ← moved, source]

theorem rotl_congr (x : Word) {n m : Word} (h : n.toNat % 32 = m.toNat % 32) : rotl x n = rotl x m := by
  rw [rotl_eq_formula, rotl_eq_formula, h]

/-- Settles O12: the two amounts of the mixed law add up to 32, and a rotation looks at the low five bits only. -/
theorem rotationsInvertEachOther : Obligations.RotationsInvertEachOther := by
  intro x n
  refine ⟨rotl_rotr x n, rotr_rotl x n, rotl_eq_rotr_of_amounts x ?_, rotl_congr x ?_⟩
  · rw [BitVec.toNat_sub, BitVec.toNat_ofNat, BitVec.toNat_ofNat]
    omega
  · rw [BitVec.toNat_ofNat]
    omega

end Sys2Proof.Machine
end

section
/-! PROOF. The key schedule without its arrays (O13). Both arrays are written cyclically, so a slot holds what was
written one period ago, and the schedule becomes two recurrences. -/

namespace Sys2Proof.Machine

/-! ### An array written cyclically -/

section
variable {c : Nat} {a : Nat → List Word} {v : Nat → Word} (length : (a 0).length = c)
  (write : ∀ t, a (t + 1) = (a t).set (t % c) (v t))
include length write

theorem cyclic_writes_length (t : Nat) : (a t).length = c := by
  induction t with
  | zero => exact length
  | succ t ih => rw [write, List.length_set, ih]

/-- After t writes in cyclic order, the slot that write u is to replace (u from t to t + c - 1) holds write u - c, or
its first word if it was not written yet. -/
theorem getD_cyclic_writes {t u : Nat} (from_t : t ≤ u) (to_t : u < t + c) :
    (a t).getD (u % c) 0#32 = if u < c then (a 0).getD u 0#32 else v (u - c) := by
  induction t with
  | zero =>
    have first : u < c := by omega
    rw [if_pos first, Nat.mod_eq_of_lt first]
  | succ t ih =>
    rw [write, List.getD_eq_getElem?_getD]
    by_cases last : u = t + c
    · subst last
      have slot : t % c < (a t).length := by
        rw [cyclic_writes_length length write]
        exact Nat.mod_lt t (by omega)
      rw [Nat.add_mod_right, List.getElem?_set_self slot, if_neg (by omega), Nat.add_sub_cancel, Option.getD_some]
    · have other : t % c ≠ u % c := by
        intro same
        have period : c ∣ u - t := (Nat.modEq_iff_dvd' (by omega)).1 same
        exact absurd (Nat.le_of_dvd (by omega) period) (by omega)
      rw [List.getElem?_set_ne other, ← List.getD_eq_getElem?_getD, ih (by omega) (by omega)]

end

/-! ### The mixing loop -/

theorem initWords_getD (q : Word) {n i : Nat} (hi : i < n) (w : Word) :
    (initWords q n w).getD i 0#32 = w + BitVec.ofNat 32 i * q := by
  induction n generalizing i w with
  | zero => exact absurd hi (Nat.not_lt_zero i)
  | succ n ih =>
    cases i with
    | zero => simp [initWords]
    | succ i =>
      rw [initWords, List.getD_cons_succ, ih (Nat.lt_of_succ_lt_succ hi), BitVec.ofNat_add, BitVec.add_mul,
        BitVec.one_mul, BitVec.add_assoc, BitVec.add_comm q]

theorem mixLoop_succ (c n : Nat) (m : MixState) : mixLoop c (n + 1) m = mixStep c (mixLoop c n m) := by
  induction n generalizing m with
  | zero => rfl
  | succ n ih => rw [mixLoop, ih, mixLoop]

/-- The state the key schedule's mixing starts from (40_cipher.md R107). -/
def mixStart (p q : Word) (k : Key) (r : Nat) : MixState where
  s := initWords q (2 * (r + 1)) p
  l := keyWords k
  i := 0
  j := 0
  x := 0#32
  y := 0#32

/-- The mixing state before iteration t. -/
def mixBefore (p q : Word) (k : Key) (r t : Nat) : MixState := mixLoop (2 * (r + 1)) t (mixStart p q k r)

/-- X of iteration t. -/
def mixX (p q : Word) (k : Key) (r t : Nat) : Word := (mixBefore p q k r (t + 1)).x

/-- Y of iteration t. -/
def mixY (p q : Word) (k : Key) (r t : Nat) : Word := (mixBefore p q k r (t + 1)).y

section
variable (p q : Word) (k : Key) (r t : Nat)

theorem keySchedule_eq_mixBefore :
    keySchedule p q k r = (mixBefore p q k r (3 * max (2 * (r + 1)) 4)).s := rfl

theorem mixBefore_succ : mixBefore p q k r (t + 1) = mixStep (2 * (r + 1)) (mixBefore p q k r t) :=
  mixLoop_succ _ t _

theorem mixBefore_x : (mixBefore p q k r t).x = if t = 0 then 0#32 else mixX p q k r (t - 1) := by
  cases t <;> rfl

theorem mixBefore_y : (mixBefore p q k r t).y = if t = 0 then 0#32 else mixY p q k r (t - 1) := by
  cases t <;> rfl

theorem mixBefore_i : (mixBefore p q k r t).i = t % (2 * (r + 1)) := by
  induction t with
  | zero => rfl
  | succ t ih => rw [mixBefore_succ, mixStep, ih, Nat.mod_add_mod]

theorem mixBefore_j : (mixBefore p q k r t).j = t % 4 := by
  induction t with
  | zero => rfl
  | succ t ih => rw [mixBefore_succ, mixStep, ih, Config.cWords, Nat.mod_add_mod]

theorem mixBefore_s_succ :
    (mixBefore p q k r (t + 1)).s = (mixBefore p q k r t).s.set (t % (2 * (r + 1))) (mixX p q k r t) := by
  rw [mixX, mixBefore_succ, ← mixBefore_i p q k r t]
  rfl

theorem mixBefore_l_succ :
    (mixBefore p q k r (t + 1)).l = (mixBefore p q k r t).l.set (t % 4) (mixY p q k r t) := by
  rw [mixY, mixBefore_succ, ← mixBefore_j p q k r t]
  rfl

/-- S[u mod T] before iteration t, for u from t to t + T - 1. -/
theorem mixBefore_s_getD {t u : Nat} (from_t : t ≤ u) (to_t : u < t + 2 * (r + 1)) :
    (mixBefore p q k r t).s.getD (u % (2 * (r + 1))) 0#32 =
      if u < 2 * (r + 1) then p + BitVec.ofNat 32 u * q else mixX p q k r (u - 2 * (r + 1)) := by
  refine (getD_cyclic_writes (a := fun t => (mixBefore p q k r t).s) (initWords_length q _ p)
    (mixBefore_s_succ p q k r) from_t to_t).trans ?_
  split
  · next first => exact initWords_getD q first p
  · rfl

/-- L[t mod 4] before iteration t. -/
theorem mixBefore_l_getD :
    (mixBefore p q k r t).l.getD (t % 4) 0#32 =
      if t < 4 then [k.k0, k.k1, k.k2, k.k3].getD t 0#32 else mixY p q k r (t - 4) :=
  getD_cyclic_writes (c := 4) (a := fun t => (mixBefore p q k r t).l) rfl (mixBefore_l_succ p q k r) (Nat.le_refl t)
    (Nat.lt_add_of_pos_right (by decide))

theorem mixX_eq : mixX p q k r t =
    rotl ((mixBefore p q k r t).s.getD (t % (2 * (r + 1))) 0#32 + (mixBefore p q k r t).x +
      (mixBefore p q k r t).y) 3#32 := by
  rw [mixX, mixBefore_succ, mixStep, mixBefore_i]

/-- The update of L[j] uses the X just written. -/
theorem mixY_eq : mixY p q k r t =
    rotl ((mixBefore p q k r t).l.getD (t % 4) 0#32 + mixX p q k r t + (mixBefore p q k r t).y)
      (mixX p q k r t + (mixBefore p q k r t).y) := by
  rw [mixX, mixY, mixBefore_succ, mixStep, mixBefore_j]

/-- The last write of S[i], as the number of iterations is a multiple of T. -/
theorem keySchedule_getD {i : Nat} (hi : i < 2 * (r + 1)) :
    (keySchedule p q k r).getD i 0#32 = mixX p q k r (3 * max (2 * (r + 1)) 4 - 2 * (r + 1) + i) := by
  have whole : (3 * max (2 * (r + 1)) 4 + i) % (2 * (r + 1)) = i := by
    have multiple : 2 * (r + 1) ∣ 3 * max (2 * (r + 1)) 4 := by
      cases r with
      | zero => decide
      | succ r => rw [Nat.max_eq_left (by omega)]; exact Nat.dvd_mul_left _ 3
    rw [Nat.add_mod, Nat.mod_eq_zero_of_dvd multiple, Nat.zero_add, Nat.mod_mod, Nat.mod_eq_of_lt hi]
  have last := mixBefore_s_getD p q k r (Nat.le_add_right (3 * max (2 * (r + 1)) 4) i) (by omega)
  rw [whole, if_neg (by omega)] at last
  rw [keySchedule_eq_mixBefore, last]
  congr 1
  omega

end

/-- The subkeys of the rules' worked examples: key zero, R = 1, the default P and Q (R107, log 2). -/
def zeroKeySubkeys : List Word := [0x0970A4A7#32, 0x72B5661F#32, 0x7939B522#32, 0xD7BA7E35#32]

theorem keySchedule_zeroKey :
    keySchedule Config.defaults.pMagic Config.defaults.qMagic ⟨0#32, 0#32, 0#32, 0#32⟩ 1 = zeroKeySubkeys := by
  decide

/-- Settles O13: X and Y of the iterations are the sequences, as each array is read one period after it was written. -/
theorem keyScheduleIsTwoRecurrences : Obligations.KeyScheduleIsTwoRecurrences := by
  refine ⟨fun p q k r => ⟨keySchedule_length p q k r, mixX p q k r, mixY p q k r, fun t _ => ⟨?_, ?_⟩, ?_⟩,
    keySchedule_zeroKey⟩
  · rw [← mixBefore_x, ← mixBefore_y, ← mixBefore_s_getD p q k r (Nat.le_refl t) (by omega), mixX_eq]
  · rw [← mixBefore_y, ← mixBefore_l_getD, mixY_eq]
  · exact fun i hi => keySchedule_getD p q k r hi

end Sys2Proof.Machine
end

section
/-! PROOF. Encryption and decryption round by round (O14, O15), and that they invert each other (O16). -/

namespace Sys2Proof.Machine

theorem encryptBlock_zeroKey :
    encryptBlock (fun m => zeroKeySubkeys.getD m 0#32) 1 ⟨0#32, 0#32⟩ = ⟨0xB71C967E#32, 0x4924FA4D#32⟩ := by
  decide

theorem decryptBlock_zeroKey :
    decryptBlock (fun m => zeroKeySubkeys.getD m 0#32) 1 ⟨0xB71C967E#32, 0x4924FA4D#32⟩ = ⟨0#32, 0#32⟩ := by
  rw [← encryptBlock_zeroKey, decryptBlock_encryptBlock]

/-- The round equations of encryption (40_cipher.md R110), of the blocks after i - 1 and after i rounds. -/
theorem encryptRounds_equations (sub : Nat → Word) {i : Nat} (hi : 1 ≤ i) (blk : Block) :
    (encryptRounds sub i blk).a = rotl ((encryptRounds sub (i - 1) blk).a ^^^ (encryptRounds sub (i - 1) blk).b)
      (encryptRounds sub (i - 1) blk).b + sub (2 * i) ∧
    (encryptRounds sub i blk).b = rotl ((encryptRounds sub (i - 1) blk).b ^^^ (encryptRounds sub i blk).a)
      (encryptRounds sub i blk).a + sub (2 * i + 1) := by
  obtain ⟨j, rfl⟩ := Nat.exists_eq_add_of_le' hi
  exact ⟨rfl, rfl⟩

/-- The same two blocks by the round equations of decryption (R111). -/
theorem encryptRounds_decryption_equations (sub : Nat → Word) {i : Nat} (hi : 1 ≤ i) (blk : Block) :
    (encryptRounds sub (i - 1) blk).b = rotr ((encryptRounds sub i blk).b - sub (2 * i + 1))
      (encryptRounds sub i blk).a ^^^ (encryptRounds sub i blk).a ∧
    (encryptRounds sub (i - 1) blk).a = rotr ((encryptRounds sub i blk).a - sub (2 * i))
      (encryptRounds sub (i - 1) blk).b ^^^ (encryptRounds sub (i - 1) blk).b := by
  obtain ⟨j, rfl⟩ := Nat.exists_eq_add_of_le' hi
  have back : encryptRounds sub j blk = decryptRound sub (j + 1) (encryptRounds sub (j + 1) blk) :=
    (decryptRound_encryptRound sub (j + 1) _).symm
  rw [Nat.add_sub_cancel, back]
  exact ⟨rfl, rfl⟩

/-- Settles O14: a i and b i are the block after i rounds. -/
theorem encryptByAscendingRounds : Obligations.EncryptByAscendingRounds := by
  refine ⟨fun sub r a0 b0 => ?_, fun _ _ _ => rfl, ?_⟩
  · exact ⟨fun i => (encryptRounds sub i ⟨a0 + sub 0, b0 + sub 1⟩).a,
      fun i => (encryptRounds sub i ⟨a0 + sub 0, b0 + sub 1⟩).b, rfl, rfl,
      fun i hi _ => encryptRounds_equations sub hi _, rfl⟩
  · rw [keySchedule_zeroKey, encryptBlock_zeroKey]

/-- Settles O15: a i and b i are the block that i rounds of encryption make of what all rounds of decryption leave, so
that round i of decryption takes it to the one before. -/
theorem decryptByDescendingRounds : Obligations.DecryptByDescendingRounds := by
  refine ⟨fun sub r ar br => ?_, ?_⟩
  · have start := encryptRounds_decryptRounds sub r ⟨ar, br⟩
    exact ⟨fun i => (encryptRounds sub i (decryptRounds sub r ⟨ar, br⟩)).a,
      fun i => (encryptRounds sub i (decryptRounds sub r ⟨ar, br⟩)).b, congrArg Block.a start,
      congrArg Block.b start, fun i hi _ => encryptRounds_decryption_equations sub hi _, rfl⟩
  · rw [keySchedule_zeroKey, decryptBlock_zeroKey]

/-- Settles O16, by the round trips of the rounds. -/
theorem decryptInvertsEncrypt : Obligations.DecryptInvertsEncrypt :=
  fun sub r x => ⟨decryptBlock_encryptBlock sub r x, encryptBlock_decryptBlock sub r x⟩

end Sys2Proof.Machine
end

section
/-! PROOF. The commands of the cipher engine: KEYSET within the round range and beyond it (O17, O18), what a keying
depends on and what it leaves (O19, O20), ENCRYPT and DECRYPT keyed and not keyed (O21, O22, O23). -/

namespace Sys2Proof.Machine

/-! ### KEYSET -/

/-- The subkeys that KEYSET computes from the key words and ROUNDS it reads (40_cipher.md R113). -/
def expansion (s : State) : List Word := keySchedule s.params.pMagic s.params.qMagic s.key s.rounds.toNat

theorem expansion_length (s : State) : (expansion s).length = 2 * (s.rounds.toNat + 1) :=
  keySchedule_length _ _ _ _

theorem expansion_congr {s t : State} (params : s.params = t.params) (key : s.key = t.key)
    (rounds : s.rounds = t.rounds) : expansion s = expansion t := by
  rw [expansion, params, key, rounds, expansion]

theorem exec_keyset_inRange {s : State} (h : s.rounds.toNat ≤ s.params.rMax) :
    exec .keyset s = .next (finish 0x0#4 (loadKeying (expansion s) s.rounds.toNat s)) :=
  congrArg Host.Outcome.next (if_neg (Nat.not_lt.2 h))

theorem exec_keyset_tooMany {s : State} (h : s.params.rMax < s.rounds.toNat) :
    exec .keyset s = .next (finish (errorNumber .rounds) s) :=
  congrArg Host.Outcome.next (if_pos h)

theorem subkeyWord_loadKeying_of_lt {words : List Word} {m : Nat} (h : m < words.length) (r : Nat) (s : State) :
    subkeyWord (loadKeying words r s) m = words.getD m 0#32 :=
  List.getD_append _ _ _ _ h

/-- The words beyond a new keying stay (R114). -/
theorem subkeyWord_loadKeying_of_ge {words : List Word} {m : Nat} (h : words.length ≤ m) (r : Nat) (s : State) :
    subkeyWord (loadKeying words r s) m = subkeyWord s m := by
  rw [subkeyWord, loadKeying_subkeyRam, List.getD_append_right _ _ _ _ h, List.getD_eq_getElem?_getD,
    List.getElem?_drop, Nat.add_sub_cancel' h, ← List.getD_eq_getElem?_getD, subkeyWord]

/-- The words beyond the current keying are masked (10_state.md R46). -/
theorem subkeyRead_of_ge {s : State} {m : Nat} (h : tAct s ≤ m) : subkeyRead s m = 0#32 :=
  if_neg fun shown => Nat.not_lt.2 h shown.2

/-- After a new keying the SUBKEY window shows its words, and 0 beyond. -/
theorem subkeyRead_loadKeying {words : List Word} {r : Nat} (length : words.length = 2 * (r + 1)) (s : State)
    (m : Nat) : subkeyRead (loadKeying words r s) m = words.getD m 0#32 := by
  by_cases h : m < words.length
  · rw [subkeyRead, if_pos ⟨rfl, show m < 2 * (r + 1) from length ▸ h⟩, subkeyWord_loadKeying_of_lt h]
  · have beyond : words.length ≤ m := Nat.not_lt.1 h
    rw [List.getD_eq_default _ _ beyond]
    exact subkeyRead_of_ge (show 2 * (r + 1) ≤ m from length ▸ beyond)

/-- Settles O17: KEYSET loads the expansion or refuses, and the example reads the keying back. -/
theorem keysetLoadsExpansion : Obligations.KeysetLoadsExpansion := by
  refine ⟨decode_encode .keyset, fun s h => ?_, fun s h => exec_keyset_tooMany h, fun s params key rounds => ?_⟩
  · rw [exec_keyset_inRange h, finish, loadKeying, expansion_length, expansion]
  · have inRange : s.rounds.toNat ≤ s.params.rMax := by rw [rounds, params]; decide
    have words : expansion s = zeroKeySubkeys := by
      rw [expansion, params, key, rounds]
      exact keySchedule_zeroKey
    have shown (m : Nat) : regValue (.subkey m) (finish 0x0#4 (loadKeying (expansion s) s.rounds.toNat s)) =
        zeroKeySubkeys.getD m 0#32 :=
      words ▸ subkeyRead_loadKeying (expansion_length s) s m
    exact ⟨_, exec_keyset_inRange inRange, shown 0, shown 1, shown 2, shown 3, shown 4⟩

/-- Settles O19: the expansion is a function of what KEYSET reads, the cipher reads no word beyond it, and no host write
reaches the keying. -/
theorem rekeyForgetsOldKeying : Obligations.RekeyForgetsOldKeying := by
  constructor
  · intro s t params key rounds inRange
    have inRange' : t.rounds.toNat ≤ t.params.rMax := rounds ▸ params ▸ inRange
    have words : expansion s = expansion t := expansion_congr params key rounds
    have length := expansion_length t
    refine ⟨_, _, exec_keyset_inRange inRange, exec_keyset_inRange inRange', ?_⟩
    rw [words, rounds]
    have agree (m : Nat) (hm : m < 2 * (t.rounds.toNat + 1)) :
        subkeyWord (loadKeying (expansion t) t.rounds.toNat s) m =
          subkeyWord (loadKeying (expansion t) t.rounds.toNat t) m := by
      rw [subkeyWord_loadKeying_of_lt (length ▸ hm), subkeyWord_loadKeying_of_lt (length ▸ hm)]
    refine ⟨rfl, rfl, rfl, fun m => ?_, fun blk => ⟨?_, ?_⟩, rfl, rfl, rfl, rfl, rfl, rfl⟩
    · exact (subkeyRead_loadKeying length s m).trans (subkeyRead_loadKeying length t m).symm
    · exact encryptBlock_congr _ _ _ blk agree
    · exact decryptBlock_congr _ _ _ blk agree
  · intro s r v _
    obtain ⟨ram, rAct, keyed, -⟩ := busWrite_sameResults (regOffset r) v s
    exact ⟨ram, rAct, keyed⟩

/-! ### ENCRYPT and DECRYPT -/

section
variable (f : (Nat → Word) → Nat → Block → Block) (s : State)

/-- A completion before a block command leaves no trace after it. -/
theorem cipherCommand_finish (c : BitVec 4) : cipherCommand f (finish c s) = cipherCommand f s := by
  cases keyed : s.status.keyed with
  | false => rw [cipherCommand_of_unkeyed keyed, cipherCommand_of_unkeyed (s := finish c s) keyed]; rfl
  | true => rw [cipherCommand_of_keyed keyed, cipherCommand_of_keyed (s := finish c s) keyed]; rfl

/-- DIN and the keying are not written, so the same command gives the same DOUT again (40_cipher.md R117). -/
theorem cipherCommand_twice_dout : (cipherCommand f (cipherCommand f s)).dout = (cipherCommand f s).dout := by
  cases keyed : s.status.keyed with
  | false => rw [cipherCommand_of_unkeyed keyed, cipherCommand_finish, cipherCommand_of_unkeyed keyed]
  | true =>
    have again := cipherCommand_of_keyed (s := { s with dout := f (subkeyWord s) s.rAct s.din }) keyed f
    rw [cipherCommand_of_keyed keyed, cipherCommand_finish, again]
    rfl

end

/-- A block command does the same whatever the words beyond the keying hold (R114). -/
theorem cipherCommand_withSubkeyRam {f : (Nat → Word) → Nat → Block → Block}
    (congr : ∀ g g' r blk, (∀ m, m < 2 * (r + 1) → g m = g' m) → f g r blk = f g' r blk) {s : State}
    {ram : List Word} (agree : ∀ m, m < tAct s → ram.getD m 0#32 = subkeyWord s m) :
    cipherCommand f { s with subkeyRam := ram } = { cipherCommand f s with subkeyRam := ram } := by
  cases keyed : s.status.keyed with
  | false =>
    rw [cipherCommand_of_unkeyed keyed, cipherCommand_of_unkeyed (s := { s with subkeyRam := ram }) keyed]
    rfl
  | true =>
    have result : f (subkeyWord { s with subkeyRam := ram }) s.rAct s.din = f (subkeyWord s) s.rAct s.din :=
      congr _ _ s.rAct s.din agree
    rw [cipherCommand_of_keyed keyed, cipherCommand_of_keyed (s := { s with subkeyRam := ram }) keyed, result]
    rfl

/-- Settles O18: the refusal is a completion, which neither the SUBKEY window nor a block command sees. -/
theorem keysetRefusesLargeRounds : Obligations.KeysetRefusesLargeRounds := by
  intro s tooMany
  refine ⟨_, exec_keyset_tooMany tooMany, rfl, fun _ => rfl, fun i hi => ?_⟩
  obtain rfl | rfl := List.mem_pair.1 hi
  · exact congrArg Host.Outcome.next (cipherCommand_finish encryptBlock s _)
  · exact congrArg Host.Outcome.next (cipherCommand_finish decryptBlock s _)

/-- Settles O20: a keying replaces the words below T only, and these are all the window shows and the cipher reads. -/
theorem subkeyWordsBeyondKeyingUnread : Obligations.SubkeyWordsBeyondKeyingUnread := by
  refine ⟨fun s inRange => ⟨_, exec_keyset_inRange inRange, fun m hm => ?_⟩, fun _ _ => subkeyRead_of_ge, ?_⟩
  · exact subkeyWord_loadKeying_of_ge ((expansion_length s).symm ▸ hm) s.rounds.toNat s
  · intro s t ram i hi agree h
    obtain rfl | rfl := List.mem_pair.1 hi
    · cases h
      exact congrArg Host.Outcome.next (cipherCommand_withSubkeyRam encryptBlock_congr agree)
    · cases h
      exact congrArg Host.Outcome.next (cipherCommand_withSubkeyRam decryptBlock_congr agree)

theorem exec_encrypt_keyed {s : State} (keyed : s.status.keyed = true) :
    exec .encrypt s = .next (finish 0x0#4 { s with dout := encryptBlock (subkeyWord s) s.rAct s.din }) :=
  congrArg Host.Outcome.next (cipherCommand_of_keyed keyed encryptBlock)

theorem exec_decrypt_keyed {s : State} (keyed : s.status.keyed = true) :
    exec .decrypt s = .next (finish 0x0#4 { s with dout := decryptBlock (subkeyWord s) s.rAct s.din }) :=
  congrArg Host.Outcome.next (cipherCommand_of_keyed keyed decryptBlock)

/-- The subkeys of the rules' examples, from the four words they name. -/
theorem subkeyWord_eq_zeroKey {s : State} (h0 : subkeyWord s 0 = 0x0970A4A7#32) (h1 : subkeyWord s 1 = 0x72B5661F#32)
    (h2 : subkeyWord s 2 = 0x7939B522#32) (h3 : subkeyWord s 3 = 0xD7BA7E35#32) :
    ∀ m, m < 2 * (1 + 1) → subkeyWord s m = zeroKeySubkeys.getD m 0#32
  | 0, _ => h0
  | 1, _ => h1
  | 2, _ => h2
  | 3, _ => h3

/-- Settles O21 by the two cases of a block command; the example encrypts under the words it names. -/
theorem encryptWritesDout : Obligations.EncryptWritesDout := by
  refine ⟨decode_encode .encrypt, fun s keyed => exec_encrypt_keyed keyed,
    fun s unkeyed => exec_unkeyed unkeyed (by decide), fun s t u first second => ?_, ?_⟩
  · cases first
    cases second
    exact cipherCommand_twice_dout encryptBlock s
  · intro s keyed rounds h0 h1 h2 h3 din
    refine ⟨_, exec_encrypt_keyed keyed, ?_⟩
    rw [finish_dout, rounds, din]
    exact (encryptBlock_congr _ _ 1 _ (subkeyWord_eq_zeroKey h0 h1 h2 h3)).trans encryptBlock_zeroKey

/-- Settles O22 by the two cases of a block command; the examples decrypt under the words they name. -/
theorem decryptWritesDout : Obligations.DecryptWritesDout := by
  refine ⟨decode_encode .decrypt, fun s keyed => exec_decrypt_keyed keyed,
    fun s unkeyed => exec_unkeyed unkeyed (by decide), fun s keyed rounds h0 h1 h2 h3 => ?_⟩
  refine ⟨_, exec_decrypt_keyed keyed, ?_⟩
  rw [finish_dout, rounds]
  dsimp only
  rw [decryptBlock_congr _ _ 1 _ (subkeyWord_eq_zeroKey h0 h1 h2 h3)]
  constructor
  · intro din
    rw [din, decryptBlock_zeroKey]
  · intro din
    rw [din]
    decide

/-- Settles O23: both commands are gated by KEYED before they write. -/
theorem unkeyedCipherRefused : Obligations.UnkeyedCipherRefused :=
  fun _ _ hi unkeyed => exec_unkeyed unkeyed hi

end Sys2Proof.Machine
end

section
/-! PROOF. The sweep as the list of the agreeing words and the refilter as a filter (O28, O29), and the candidate
equations on a pair of a one-round keying (O25). -/

namespace Sys2Proof.Machine

/-! ### The sweep -/

/-- The words a sweep of the values below n finds, in the order it tries them (41_search.md R139). -/
def agreeingBelow (f1 f2 : Word → Word) (n : Nat) : List Word :=
  ((List.range n).map (BitVec.ofNat 32)).filter fun k => decide (f1 k = f2 k)

theorem agreeing_eq_agreeingBelow (f1 f2 : Word → Word) : agreeing f1 f2 = agreeingBelow f1 f2 wordSpace := by
  unfold agreeing agreeingBelow
  rfl

theorem agreeingBelow_succ (f1 f2 : Word → Word) (n : Nat) :
    agreeingBelow f1 f2 (n + 1) = agreeingBelow f1 f2 n ++
      if f1 (BitVec.ofNat 32 n) = f2 (BitVec.ofNat 32 n) then [BitVec.ofNat 32 n] else [] := by
  simp [agreeingBelow, List.range_succ, List.filter_singleton]

/-- What a sweep that keeps `cap` entries gives of the words found (R139). -/
def foundOf (cap : Nat) (f : Word → Word) (hits : List Word) : Found where
  count := hits.length
  list := (hits.take cap).map fun k => ⟨k, f k⟩

/-- A hit adds one to the words found, and an entry while the list is not full. -/
theorem foundOf_append_hit (cap : Nat) (f : Word → Word) (hits : List Word) (k : Word) :
    foundOf cap f (hits ++ [k]) =
      { count := (foundOf cap f hits).count + 1
        list := if (foundOf cap f hits).list.length < cap then (foundOf cap f hits).list ++ [⟨k, f k⟩]
          else (foundOf cap f hits).list } := by
  by_cases room : hits.length < cap
  · simp [foundOf, room, List.take_of_length_le, Nat.le_of_lt]
  · simp [foundOf, List.take_append_of_le_length, Nat.not_lt.1 room]

theorem sweepBelow_eq_foundOf (cap : Nat) (f1 f2 : Word → Word) (n : Nat) :
    sweepBelow cap f1 f2 n = foundOf cap f1 (agreeingBelow f1 f2 n) := by
  induction n with
  | zero => simp [sweepBelow, foundOf, agreeingBelow]
  | succ n ih =>
    rw [sweepBelow, ih, agreeingBelow_succ]
    by_cases hit : f1 (BitVec.ofNat 32 n) = f2 (BitVec.ofNat 32 n)
    · rw [sweepStep_hit hit, if_pos hit, foundOf_append_hit]
    · rw [sweepStep_miss hit, if_neg hit, List.append_nil]

/-- A sweep finds the agreeing words (R139). -/
theorem sweep_eq_foundOf (cap : Nat) (f1 f2 : Word → Word) :
    sweep cap f1 f2 = foundOf cap f1 (agreeing f1 f2) := by
  rw [sweep, sweepBelow_eq_foundOf, agreeing_eq_agreeingBelow]

theorem agreeing_length_le (f1 f2 : Word → Word) : (agreeing f1 f2).length ≤ wordSpace := by
  rw [agreeing_eq_agreeingBelow, agreeingBelow]
  exact (List.length_filter_le _ _).trans_eq (by rw [List.length_map, List.length_range])

/-- Settles O28: the sweep's loop is a filter of all words, in the order they are tried. -/
theorem sweepCountsAllWords : Obligations.SweepCountsAllWords := by
  intro cap f1 f2
  rw [sweep_eq_foundOf]
  exact ⟨rfl, rfl, agreeing_length_le f1 f2, agreeing_length_of_forall,
    fun h => congrArg List.length (agreeing_eq_nil h)⟩

/-! ### The refilter -/

theorem refilter_eq_map_filter (g1 g3 : Word → Word) (l : List Survivor) :
    refilter g1 g3 l =
      (l.filter fun e => decide (g1 e.cand = g3 e.cand)).map (fun e => ⟨e.cand, g1 e.cand⟩) := by
  induction l with
  | nil => rfl
  | cons e rest ih =>
    by_cases agree : g1 e.cand = g3 e.cand
    · simp [refilter, agree, ih]
    · simp [refilter, agree, ih]

theorem mem_refilter {g1 g3 : Word → Word} {l : List Survivor} {e : Survivor} (he : e ∈ l)
    (agree : g1 e.cand = g3 e.cand) : ⟨e.cand, g1 e.cand⟩ ∈ refilter g1 g3 l := by
  rw [refilter_eq_map_filter]
  exact List.mem_map.2 ⟨e, List.mem_filter.2 ⟨he, decide_eq_true agree⟩, rfl⟩

/-- Where the paired words already are g1's, recomputing them changes nothing (R140). -/
theorem refilter_eq_filter {g1 g3 : Word → Word} {l : List Survivor} (paired : ∀ e ∈ l, e.paired = g1 e.cand) :
    refilter g1 g3 l = l.filter fun e => decide (g1 e.cand = g3 e.cand) := by
  rw [refilter_eq_map_filter]
  refine (List.map_congr_left fun e he => ?_).trans (List.map_id _)
  rw [id, ← paired e (List.mem_of_mem_filter he)]

/-- A refilter keeps candidates of the list, in its order. -/
theorem map_cand_refilter_sublist (g1 g3 : Word → Word) (l : List Survivor) :
    ((refilter g1 g3 l).map Survivor.cand).Sublist (l.map Survivor.cand) := by
  rw [refilter_eq_map_filter, List.map_map]
  exact List.filter_sublist.map _

theorem map_cand_sweep (cap : Nat) (f1 f2 : Word → Word) :
    (sweep cap f1 f2).list.map Survivor.cand = (agreeing f1 f2).take cap := by
  rw [sweep_eq_foundOf, foundOf, List.map_map]
  exact List.map_id' _

/-- Settles O29: a refilter is a filter, and the candidates of a sweep are the first of the distinct agreeing words. -/
theorem refilterKeepsAgreeingCandidates : Obligations.RefilterKeepsAgreeingCandidates := by
  intro cap g1 g3 l
  refine ⟨refilter_eq_map_filter g1 g3 l, refilter_eq_filter, fun distinct => ?_, ?_, ?_⟩
  · exact distinct.sublist (map_cand_refilter_sublist g1 g3 l)
  · rw [map_cand_sweep]
    exact (agreeing_nodup g1 g3).sublist (List.take_sublist _ _)
  · rw [sweep_length]
    exact Nat.min_le_right _ _

/-! ### The candidate equations -/

section
variable {s0 s1 s2 s3 : Word} {q : Pair} (h : PairOf s0 s1 s2 s3 q)
include h

theorem PairOf.ciphertext_a :
    q.c.a = rotl ((q.p.a + s0) ^^^ (q.p.b + s1)) (q.p.b + s1) + s2 :=
  congrArg Block.a h

theorem PairOf.ciphertext_b : q.c.b = rotl ((q.p.b + s1) ^^^ q.c.a) q.c.a + s3 := by
  rw [h.ciphertext_a]
  exact congrArg Block.b h

/-- The true S3 takes the second half of the round off (41_search.md R130). -/
theorem PairOf.bmid_eq : bmid q s3 = q.p.b + s1 := by
  rw [bmid, h.ciphertext_b, BitVec.add_sub_cancel, rotr_rotl, BitVec.xor_assoc, BitVec.xor_self, BitVec.xor_zero]

theorem PairOf.cand1_eq : cand1 q s3 = s1 := by
  rw [cand1, h.bmid_eq, BitVec.add_comm, BitVec.add_sub_cancel]

theorem PairOf.cand2_eq : cand2 q s3 s2 = s0 := by
  rw [cand2, h.bmid_eq, h.ciphertext_a, BitVec.add_sub_cancel, rotr_rotl, BitVec.xor_assoc, BitVec.xor_self,
    BitVec.xor_zero, BitVec.add_comm, BitVec.add_sub_cancel]

end

/-- Settles O25: the equations undo the round's second half, then its first. -/
theorem candidatesRecoverSubkeys : Obligations.CandidatesRecoverSubkeys :=
  fun _ _ _ _ _ h => ⟨h.ciphertext_a, h.ciphertext_b, h.bmid_eq, h.cand1_eq, h.cand2_eq⟩

end Sys2Proof.Machine
end

section
/-! PROOF. What the search commands commit: the next state of SEARCHp and of FILTERp (O30, O31), FILTER's refusals (O33),
the overflow (O32, O35), and that none of the four reads the keying (O36). -/

namespace Sys2Proof.Machine

/-! ### SEARCHp -/

/-- The words a SEARCH of phase p finds: those on which the candidates of pairs 1 and 2 agree (41_search.md R135, R137). -/
def phaseHits (p : Phase) (s : State) : List Word := agreeing (phaseCand p s s.pair1) (phaseCand p s s.pair2)

theorem swept_eq_foundOf (p : Phase) (s : State) :
    swept p s = foundOf s.params.survMax (phaseCand p s s.pair1) (phaseHits p s) :=
  sweep_eq_foundOf _ _ _

theorem swept_count (p : Phase) (s : State) : (swept p s).count = (phaseHits p s).length := by
  rw [swept_eq_foundOf, foundOf]

theorem exec_search (p : Phase) (s : State) : exec (searchInstr p) s =
    .next (finish (searchCode s.params.survMax (swept p s)) (commit p (swept p s) true s)) := by
  rw [exec_searchInstr]
  exact congrArg Host.Outcome.next (searchEnd_eq_finish (swept p s) (commit p (swept p s) true s))

theorem resultOf_of_count_ne_one {r : Found} (h : r.count ≠ 1) (p : Phase) (res : Results) : resultOf p r res = res := by
  unfold resultOf
  split
  · exact if_neg h
  · rfl

/-- The RES registers after a SEARCH whose buffer has room for one entry (R142). -/
theorem resultOf_foundOf {cap : Nat} (room : 1 ≤ cap) (p : Phase) (f : Word → Word) (hits : List Word) (res : Results) :
    resultOf p (foundOf cap f hits) res =
      if hits.length = 1 then writeResult p ⟨hits.headD 0#32, f (hits.headD 0#32)⟩ res else res := by
  cases hits with
  | nil => simp [foundOf, resultOf]
  | cons k rest =>
    obtain ⟨n, rfl⟩ := Nat.exists_eq_add_of_le' room
    rfl

/-- The state a SEARCH ends in, from the words it found: the commit's writes and the completion's. -/
theorem finish_commit_foundOf {s : State} (legal : s.params.Legal) (p : Phase) (f : Word → Word) (hits : List Word) :
    finish (searchCode s.params.survMax (foundOf s.params.survMax f hits))
        (commit p (foundOf s.params.survMax f hits) true s) =
      (let kept := (hits.take s.params.survMax).map fun k => (⟨k, f k⟩ : Survivor)
       { s with
         survCount := BitVec.ofNat 32 (min hits.length 0xFFFFFFFF)
         surv := kept ++ s.surv.drop kept.length
         res := if hits.length = 1 then writeResult p ⟨hits.headD 0#32, f (hits.headD 0#32)⟩ s.res else s.res
         status :=
           { s.status with
             sphase := phaseNumber p
             sovf := decide (s.params.survMax < hits.length)
             resolved := decide (hits.length = 1)
             errcode :=
               if hits.length = 0 then 0x4#4 else if s.params.survMax < hits.length then 0x6#4 else 0x0#4
             done := true }
         pend := none }) := by
  rw [← resultOf_foundOf legal.survMax_ge]
  rfl

/-- The next state of SEARCHp from the words it finds. -/
theorem exec_search_hits (p : Phase) (s : State) :
    exec (searchInstr p) s = .next
      (finish (searchCode s.params.survMax (foundOf s.params.survMax (phaseCand p s s.pair1) (phaseHits p s)))
        (commit p (foundOf s.params.survMax (phaseCand p s s.pair1) (phaseHits p s)) true s)) := by
  rw [exec_search, swept_eq_foundOf]

/-- Settles O30: both searches commit the words found, and RES takes the first of them where it is the only one. -/
theorem searchCommitsSweep : Obligations.SearchCommitsSweep := by
  refine ⟨decode_encode .search1, decode_encode .search2, fun s legal => ?_⟩
  have next (p : Phase) := (exec_search_hits p s).trans (congrArg _ (finish_commit_foundOf legal p _ _))
  exact ⟨next .one, next .two⟩

/-! ### FILTERp -/

theorem exec_filter_sequence {s : State} {p : Phase} (other : s.status.sphase ≠ phaseNumber p) :
    exec (filterInstr p) s = .next (finish (errorNumber .sequence) s) := by
  rw [exec_filterInstr, filterCommand, if_pos other, raiseError_eq]

theorem exec_filter_overflowed {s : State} {p : Phase} (phase : s.status.sphase = phaseNumber p)
    (sovf : s.status.sovf = true) : exec (filterInstr p) s = .next (finish (errorNumber .sovf) s) := by
  rw [exec_filterInstr, filterCommand, if_neg (not_not.2 phase), if_pos sovf, raiseError_eq]

theorem exec_filter {s : State} {p : Phase} (phase : s.status.sphase = phaseNumber p) (fits : s.status.sovf = false) :
    exec (filterInstr p) s = .next (finish (filterCode (refiltered p s)) (commit p (refiltered p s) false s)) := by
  rw [exec_filterInstr, filterCommand, if_neg (not_not.2 phase), if_neg (Bool.eq_false_iff.1 fits)]
  exact congrArg Host.Outcome.next (filterEnd_eq_finish (refiltered p s) (commit p (refiltered p s) false s))

/-- What FILTERp leaves: the valid survivors on which the candidates of pairs 1 and 3 agree, each with the paired word of
pair 1 (R136, R138). -/
def keptSurvivors (p : Phase) (s : State) : List Survivor :=
  ((validSurvivors s).filter fun e => decide (phaseCand p s s.pair1 e.cand = phaseCand p s s.pair3 e.cand)).map
    fun e => ⟨e.cand, phaseCand p s s.pair1 e.cand⟩

theorem refiltered_eq_kept (p : Phase) (s : State) :
    refiltered p s = { count := (keptSurvivors p s).length, list := keptSurvivors p s } := by
  rw [refiltered, refilter_eq_map_filter]
  rfl

/-- Not more than SURV_COUNT entries are valid, so the count of those kept does not saturate (10_state.md R39). -/
theorem keptSurvivors_length_le (p : Phase) (s : State) : (keptSurvivors p s).length ≤ 0xFFFFFFFF := by
  have valid : (keptSurvivors p s).length ≤ (validSurvivors s).length := by
    rw [keptSurvivors, List.length_map]
    exact List.length_filter_le _ _
  have count : (validSurvivors s).length ≤ s.survCount.toNat :=
    (List.length_take_le _ _).trans (Nat.min_le_left _ _)
  have := s.survCount.isLt
  omega

/-- The RES registers after a FILTER that keeps these survivors (R142). -/
def resAfterFilter (p : Phase) (res : Results) : List Survivor → Results
  | [e] => writeResult p e res
  | _ => res

theorem resultOf_kept (p : Phase) (kept : List Survivor) (res : Results) :
    resultOf p { count := kept.length, list := kept } res = resAfterFilter p res kept := by
  cases kept with
  | nil => rfl
  | cons e rest =>
    cases rest with
    | nil => rfl
    | cons e' rest => exact resultOf_of_count_ne_one (Nat.succ_succ_ne_one rest.length) p res

/-- The state a FILTER ends in, from the survivors it keeps: the commit's writes and the completion's. -/
theorem finish_commit_kept (p : Phase) {kept : List Survivor} (small : kept.length ≤ 0xFFFFFFFF) (s : State) :
    finish (filterCode { count := kept.length, list := kept })
        (commit p { count := kept.length, list := kept } false s) =
      { s with
        survCount := BitVec.ofNat 32 kept.length
        surv := kept ++ s.surv.drop kept.length
        res := resAfterFilter p s.res kept
        status :=
          { s.status with
            resolved := decide (kept.length = 1)
            errcode := if kept.length = 0 then 0x4#4 else if 1 < kept.length then 0x5#4 else 0x0#4
            done := true }
        pend := none } := by
  rw [commit, resultOf_kept, Nat.min_eq_left small]
  rfl

/-- The next state of FILTERp from the survivors it keeps. -/
theorem exec_filter_kept {s : State} {p : Phase} (phase : s.status.sphase = phaseNumber p)
    (fits : s.status.sovf = false) :
    exec (filterInstr p) s = .next
      (finish (filterCode { count := (keptSurvivors p s).length, list := keptSurvivors p s })
        (commit p { count := (keptSurvivors p s).length, list := keptSurvivors p s } false s)) := by
  rw [exec_filter phase fits, refiltered_eq_kept]

/-- Settles O31: both filters commit the survivors kept, and RES takes the one that is left alone. -/
theorem filterCommitsRefilter : Obligations.FilterCommitsRefilter := by
  have next (p : Phase) (s : State) (phase : s.status.sphase = phaseNumber p) (fits : s.status.sovf = false) :=
    (exec_filter_kept phase fits).trans (congrArg _ (finish_commit_kept p (keptSurvivors_length_le p s) s))
  refine ⟨decode_encode .filter1, decode_encode .filter2, fun s phase fits => ?_, fun s phase fits => ?_⟩
  · exact next .one s phase fits
  · exact next .two s phase fits

theorem keptSurvivors_of_no_survivors {s : State} (none : s.survCount = 0#32) (p : Phase) : keptSurvivors p s = [] := by
  simp [keptSurvivors, validSurvivors, validCount, none]

/-- The preconditions of a FILTER of phase p in their order, and the refilter of no survivors (R145). -/
theorem filterInstr_preconditions (p : Phase) (s : State) :
    (s.status.sphase ≠ phaseNumber p → exec (filterInstr p) s = .next (finish 0x7#4 s)) ∧
    (s.status.sphase = phaseNumber p → s.status.sovf = true → exec (filterInstr p) s = .next (finish 0x6#4 s)) ∧
    (s.status.sphase = phaseNumber p → s.status.sovf = false → s.survCount = 0#32 →
      ∃ t : State, exec (filterInstr p) s = .next t ∧ t.status.errcode = 0x4#4 ∧ t.survCount = 0#32) := by
  refine ⟨exec_filter_sequence, exec_filter_overflowed, fun phase fits none => ⟨_, exec_filter_kept phase fits, ?_⟩⟩
  rw [keptSurvivors_of_no_survivors none]
  exact ⟨rfl, rfl⟩

/-- Settles O33: SPHASE is looked at before SOVF, both before the refilter, which of no survivors leaves none. -/
theorem filterPreconditionsInOrder : Obligations.FilterPreconditionsInOrder := by
  intro s i p hp
  obtain h | h := List.mem_pair.1 hp
  · cases h
    exact filterInstr_preconditions .one s
  · cases h
    exact filterInstr_preconditions .two s

/-! ### What is valid after a commit -/

section
variable {s : State} (legal : s.params.Legal) {r : Found} (length : r.list.length = min r.count s.params.survMax)
include legal length

/-- In a legal block a commit of as many entries as the buffer takes leaves exactly those valid (10_state.md R45). -/
theorem commit_validSurvivors_eq_list (p : Phase) (b : Bool) : validSurvivors (commit p r b s) = r.list := by
  have small := legal.survMax_le
  rw [commit_validSurvivors p b (Nat.le_of_eq length.symm)]
  refine List.take_of_length_le ?_
  rw [commit_validCount]
  omega

/-- One survivor alone is the one valid entry, and RES takes it (41_search.md R142). -/
theorem commit_of_count_one (one : r.count = 1) (p : Phase) (b : Bool) :
    ∃ e, validSurvivors (commit p r b s) = [e] ∧ (commit p r b s).res = writeResult p e s.res := by
  have room := legal.survMax_ge
  obtain ⟨e, he⟩ := List.length_eq_one_iff.1 (show r.list.length = 1 by omega)
  refine ⟨e, (commit_validSurvivors_eq_list legal length p b).trans he, ?_⟩
  rw [commit_res, resultOf, he]
  exact if_pos one

end

/-! ### Overflow -/

/-- `t` is how a SEARCH of phase p ends in `s` when it overflows with these words found (R144). -/
structure OverflowEnd (p : Phase) (f : Word → Word) (hits : List Word) (s t : State) : Prop where
  sovf : t.status.sovf = true
  errcode : t.status.errcode = 0x6#4
  sphase : t.status.sphase = phaseNumber p
  count : t.survCount = BitVec.ofNat 32 (min hits.length 0xFFFFFFFF)
  survivors : validSurvivors t = (hits.take s.params.survMax).map fun k => ⟨k, f k⟩
  resolved : t.status.resolved = false
  results : t.res = s.res

theorem foundOf_list_length (cap : Nat) (f : Word → Word) (hits : List Word) :
    (foundOf cap f hits).list.length = min (foundOf cap f hits).count cap := by
  rw [foundOf, List.length_map, List.length_take, Nat.min_comm]

theorem finish_commit_overflow {s : State} (legal : s.params.Legal) (p : Phase) (f : Word → Word) {hits : List Word}
    (excess : s.params.survMax < hits.length) :
    OverflowEnd p f hits s
      (finish (searchCode s.params.survMax (foundOf s.params.survMax f hits))
        (commit p (foundOf s.params.survMax f hits) true s)) := by
  have room := legal.survMax_ge
  have several : hits.length ≠ 1 := by omega
  have valid := commit_validSurvivors_eq_list legal (foundOf_list_length s.params.survMax f hits) p true
  rw [finish_commit_foundOf legal]
  exact
    { sovf := decide_eq_true excess
      errcode := (if_neg (Nat.ne_zero_of_lt excess)).trans (if_pos excess)
      sphase := rfl
      count := rfl
      survivors := valid
      resolved := decide_eq_false several
      results := if_neg several }

theorem searchInstr_overflow {s : State} (legal : s.params.Legal) {p : Phase}
    (excess : s.params.survMax < (phaseHits p s).length) :
    ∃ t, exec (searchInstr p) s = .next t ∧ OverflowEnd p (phaseCand p s s.pair1) (phaseHits p s) s t :=
  ⟨_, exec_search_hits p s, finish_commit_overflow legal p _ excess⟩

/-- Settles O32: a search that overflows leaves SOVF, on which FILTER of its phase is refused. -/
theorem overflowKeepsSmallest : Obligations.OverflowKeepsSmallest := by
  have both (p : Phase) (s : State) (legal : s.params.Legal) (excess : s.params.survMax < (phaseHits p s).length) :
      ∃ t u, exec (searchInstr p) s = .next t ∧ OverflowEnd p (phaseCand p s s.pair1) (phaseHits p s) s t ∧
        exec (filterInstr p) t = .next u ∧ u.status.errcode = 0x6#4 := by
    obtain ⟨t, next, ends⟩ := searchInstr_overflow legal excess
    exact ⟨t, _, next, ends, exec_filter_overflowed ends.sphase ends.sovf, rfl⟩
  intro s legal
  constructor
  · intro hits excess
    obtain ⟨t, u, search, ends, filter, code⟩ := both .one s legal excess
    exact ⟨t, u, search, ends.sovf, ends.errcode, ends.count, ends.survivors, ends.resolved, ends.results, filter, code⟩
  · intro hits excess
    obtain ⟨t, u, search, ends, filter, code⟩ := both .two s legal excess
    exact ⟨t, u, search, ends.sovf, ends.errcode, ends.count, ends.survivors, ends.resolved, ends.results, filter, code⟩

/-! ### Equal pairs -/

theorem agreeing_self (f : Word → Word) : agreeing f f = (List.range wordSpace).map (BitVec.ofNat 32) := by
  unfold agreeing
  exact List.filter_eq_self.2 fun _ _ => decide_eq_true rfl

theorem phaseHits_of_equal_pairs {s : State} (equal : s.pair1 = s.pair2) (p : Phase) :
    phaseHits p s = (List.range wordSpace).map (BitVec.ofNat 32) := by
  rw [phaseHits, ← equal, agreeing_self]

theorem searchInstr_equal_pairs {s : State} (legal : s.params.Legal) (equal : s.pair1 = s.pair2) (p : Phase) :
    ∃ t : State, exec (searchInstr p) s = .next t ∧ t.survCount = 0xFFFFFFFF#32 ∧ t.status.sovf = true ∧
      t.status.errcode = 0x6#4 ∧ t.status.sphase = phaseNumber p ∧ t.res = s.res ∧
      validSurvivors t = (List.range s.params.survMax).map
        fun n => ⟨BitVec.ofNat 32 n, phaseCand p s s.pair1 (BitVec.ofNat 32 n)⟩ := by
  have small := legal.survMax_le
  have space : wordSpace = 0x100000000 := rfl
  have length : (phaseHits p s).length = wordSpace := by
    rw [phaseHits_of_equal_pairs equal, List.length_map, List.length_range]
  obtain ⟨t, next, ends⟩ := searchInstr_overflow (p := p) legal (by omega)
  refine ⟨t, next, ?_, ends.sovf, ends.errcode, ends.sphase, ends.results, ?_⟩
  · rw [ends.count, length, space]
    rfl
  · rw [ends.survivors, phaseHits_of_equal_pairs equal, ← List.map_take, List.take_range, List.map_map,
      Nat.min_eq_left (by omega)]
    rfl

/-- Settles O35: every word agrees with itself, and there are more of them than the buffer takes. -/
theorem equalPairsOverflow : Obligations.EqualPairsOverflow :=
  fun _ legal equal => ⟨searchInstr_equal_pairs legal equal .one, searchInstr_equal_pairs legal equal .two⟩

/-! ### The keying is not read -/

/-- `s` with other key words, ROUNDS, subkey RAM, R_ACT and KEYED. -/
def withKeying (key : Key) (rounds : Word) (ram : List Word) (rAct : Nat) (keyed : Bool) (s : State) : State :=
  { s with key := key, rounds := rounds, subkeyRam := ram, rAct := rAct, status := { s.status with keyed := keyed } }

section
variable (key : Key) (rounds : Word) (ram : List Word) (rAct : Nat) (keyed : Bool) (p : Phase) (s : State)

theorem phaseCand_withKeying (q : Pair) : phaseCand p (withKeying key rounds ram rAct keyed s) q = phaseCand p s q := by
  cases p <;> rfl

theorem searchInstr_withKeying {t : State} (h : exec (searchInstr p) s = .next t) :
    exec (searchInstr p) (withKeying key rounds ram rAct keyed s) = .next (withKeying key rounds ram rAct keyed t) := by
  have found : swept p (withKeying key rounds ram rAct keyed s) = swept p s := by
    rw [swept, phaseCand_withKeying, phaseCand_withKeying]
    rfl
  rw [exec_search] at h ⊢
  cases h
  rw [found]
  rfl

theorem filterInstr_withKeying {t : State} (h : exec (filterInstr p) s = .next t) :
    exec (filterInstr p) (withKeying key rounds ram rAct keyed s) = .next (withKeying key rounds ram rAct keyed t) := by
  have found : refiltered p (withKeying key rounds ram rAct keyed s) = refiltered p s := by
    rw [refiltered, phaseCand_withKeying, phaseCand_withKeying]
    rfl
  by_cases phase : s.status.sphase = phaseNumber p
  · cases sovf : s.status.sovf with
    | true =>
      rw [exec_filter_overflowed phase sovf] at h
      cases h
      exact exec_filter_overflowed phase sovf
    | false =>
      rw [exec_filter phase sovf] at h
      cases h
      rw [exec_filter (s := withKeying key rounds ram rAct keyed s) phase sovf, found]
      rfl
  · rw [exec_filter_sequence phase] at h
    cases h
    exact exec_filter_sequence phase

end

theorem mem_searchInstrs {i : Instr} (hi : i ∈ [Instr.search1, .filter1, .search2, .filter2]) :
    ∃ p, i = searchInstr p ∨ i = filterInstr p := by
  cases i with
  | search1 => exact ⟨.one, .inl rfl⟩
  | filter1 => exact ⟨.one, .inr rfl⟩
  | search2 => exact ⟨.two, .inl rfl⟩
  | filter2 => exact ⟨.two, .inr rfl⟩
  | _ => exact absurd hi (by decide)

/-- Settles O36: what a sweep or a refilter gives and what is committed of it depend on none of the keying (R146). -/
theorem searchIgnoresKeying : Obligations.SearchIgnoresKeying := by
  intro i s t key rounds ram rAct keyed hi h
  obtain ⟨p, rfl | rfl⟩ := mem_searchInstrs hi
  · exact searchInstr_withKeying key rounds ram rAct keyed p s h
  · exact filterInstr_withKeying key rounds ram rAct keyed p s h

end Sys2Proof.Machine
end

section
/-! PROOF. When RES registers are written (O34), and that the true subkey survives each phase of the attack (O26, O27):
both follow from what a commit of as many survivors as the buffer takes leaves. -/

namespace Sys2Proof.Machine

/-! ### Results -/

theorem refiltered_list_length_eq_min (p : Phase) (s : State) :
    (refiltered p s).list.length = min (refiltered p s).count s.params.survMax :=
  (Nat.min_eq_left (refiltered_count_le p s)).symm

/-- A command commits what its search or filter found, or leaves RES; a SEARCH or FILTER that commits nothing raises. -/
theorem Effect.commits_or_leaves_res {s u : State} {i : Instr} {c : BitVec 4} (h : Effect s i c u) :
    (∃ p r b, (i = searchInstr p ∨ i = filterInstr p) ∧ u = commit p r b s ∧
      r.list.length = min r.count s.params.survMax) ∨
    (u.res = s.res ∧ (i ∈ [Instr.search1, .filter1, .search2, .filter2] → c ≠ 0x0#4)) := by
  cases h with
  | search p => exact .inl ⟨p, _, true, .inl rfl, rfl, swept_list_length p s⟩
  | filter p => exact .inl ⟨p, _, false, .inr rfl, rfl, refiltered_list_length_eq_min p s⟩
  | refused _ e => exact .inr ⟨rfl, fun _ => errorNumber_ne_zero e⟩
  | _ => exact .inr ⟨rfl, fun hi => absurd hi (by decide)⟩

theorem count_eq_one_of_saturated {n : Nat} (h : BitVec.ofNat 32 (min n 0xFFFFFFFF) = 1#32) : n = 1 := by
  have value := congrArg BitVec.toNat h
  rw [toNat_saturated, BitVec.toNat_ofNat] at value
  omega

/-- The instructions of one phase are not of the other. -/
theorem not_mem_other_phase {i : Instr} (one : i ∈ [Instr.search1, .filter1]) : i ∉ [Instr.search2, .filter2] := by
  obtain rfl | rfl := List.mem_pair.1 one <;> decide

/-- Settles O34: RES is written by a commit with count 1 only, and such a commit leaves one entry, which RES takes. -/
theorem resultsWrittenOnlyWhenUnique : Obligations.ResultsWrittenOnlyWhenUnique := by
  constructor
  · intro i s t legal h changed
    obtain ⟨c, u, effect, rfl⟩ := exec_effect h
    obtain ⟨p, r, b, hi, rfl, length⟩ | ⟨same, -⟩ := effect.commits_or_leaves_res
    · have one : r.count = 1 := by
        by_contra several
        exact changed (resultOf_of_count_ne_one several p s.res)
      obtain ⟨e, valid, res⟩ := commit_of_count_one legal length one p b
      refine ⟨decide_eq_true one, e, valid, ?_⟩
      cases p with
      | one => exact .inl ⟨List.mem_pair.2 hi, res⟩
      | two => exact .inr ⟨List.mem_pair.2 hi, res⟩
    · exact absurd same changed
  · intro i s t legal h hi code count
    obtain ⟨c, u, effect, rfl⟩ := exec_effect h
    obtain ⟨p, r, b, hp, rfl, length⟩ | ⟨-, raises⟩ := effect.commits_or_leaves_res
    · obtain ⟨e, valid, res⟩ := commit_of_count_one legal length (count_eq_one_of_saturated count) p b
      refine ⟨e, valid, ?_⟩
      rw [finish_res, res]
      cases p with
      | one => exact ⟨fun _ => ⟨rfl, rfl⟩, fun two => absurd two (not_mem_other_phase (List.mem_pair.2 hp))⟩
      | two => exact ⟨fun one => absurd (List.mem_pair.2 hp) (not_mem_other_phase one), fun _ => ⟨rfl, rfl⟩⟩
    · exact absurd code (raises hi)

/-! ### The true subkey survives -/

/-- `t`, in which a SEARCH or FILTER of phase p on `s` ended, has kept the survivor `x`. -/
structure Keeps (p : Phase) (x : Survivor) (s t : State) : Prop where
  count : t.survCount ≠ 0#32
  conclusive : t.status.errcode ≠ 0x4#4
  valid : t.status.sovf = false → x ∈ validSurvivors t
  resolved : t.status.resolved = true → t.res = writeResult p x s.res

/-- A commit keeps an entry that is in its list unless the list was cut short. -/
theorem finish_commit_keeps {s : State} (legal : s.params.Legal) {p : Phase} {r : Found} {b : Bool} {x : Survivor}
    {c : BitVec 4} (length : r.list.length = min r.count s.params.survMax) (found : r.count ≠ 0) (conclusive : c ≠ 0x4#4)
    (mem : r.count ≤ s.params.survMax → x ∈ r.list) (whole : b = false → r.count ≤ s.params.survMax) :
    Keeps p x s (finish c (commit p r b s)) where
  count zero := by
    have value := congrArg BitVec.toNat zero
    rw [finish_survCount, commit_survCount, toNat_saturated, BitVec.toNat_ofNat] at value
    omega
  conclusive := conclusive
  valid fits := by
    have le : r.count ≤ s.params.survMax := by
      cases b with
      | false => exact whole rfl
      | true => exact Nat.not_lt.1 (of_decide_eq_false fits)
    exact (commit_validSurvivors_eq_list legal length p b).symm ▸ mem le
  resolved one := by
    have one : r.count = 1 := of_decide_eq_true one
    obtain ⟨e, valid, res⟩ := commit_of_count_one legal length one p b
    rw [commit_validSurvivors_eq_list legal length] at valid
    have hx := mem (one ▸ legal.survMax_ge)
    rw [valid, List.mem_singleton] at hx
    rw [hx]
    exact res

theorem searchCode_ne_inconclusive {r : Found} (found : r.count ≠ 0) (survMax : Nat) : searchCode survMax r ≠ 0x4#4 := by
  rw [searchCode, if_neg found]
  split <;> decide

theorem filterCode_ne_inconclusive {r : Found} (found : r.count ≠ 0) : filterCode r ≠ 0x4#4 := by
  rw [filterCode, if_neg found]
  split <;> decide

theorem mem_foundOf_list {cap : Nat} {f : Word → Word} {hits : List Word} {k : Word} (hk : k ∈ hits)
    (fits : (foundOf cap f hits).count ≤ cap) : ⟨k, f k⟩ ∈ (foundOf cap f hits).list := by
  rw [foundOf, List.take_of_length_le fits]
  exact List.mem_map_of_mem hk

section
variable {s : State} (legal : s.params.Legal) {p : Phase} {k a : Word} (onPair1 : phaseCand p s s.pair1 k = a)
include legal onPair1

/-- A word to which pairs 1 and 2 give the same candidate survives the sweep with it. -/
theorem search_keeps_agreeing (onPair2 : phaseCand p s s.pair2 k = a) :
    k ∈ phaseHits p s ∧ ∃ t, exec (searchInstr p) s = .next t ∧ Keeps p ⟨k, a⟩ s t := by
  subst a
  have hit : k ∈ phaseHits p s := (mem_agreeing _ _ k).2 onPair2.symm
  have found : (swept p s).count ≠ 0 := by
    rw [swept_count]
    exact Nat.ne_zero_of_lt (List.length_pos_of_mem hit)
  have mem : (swept p s).count ≤ s.params.survMax → ⟨k, phaseCand p s s.pair1 k⟩ ∈ (swept p s).list := by
    rw [swept_eq_foundOf]
    exact mem_foundOf_list hit
  exact ⟨hit, _, exec_search p s, finish_commit_keeps legal (swept_list_length p s) found
    (searchCode_ne_inconclusive found _) mem nofun⟩

/-- A valid survivor to which pairs 1 and 3 give the same candidate survives the refilter with it. -/
theorem filter_keeps_agreeing (onPair3 : phaseCand p s s.pair3 k = a) (phase : s.status.sphase = phaseNumber p)
    (fits : s.status.sovf = false) (valid : ∃ e ∈ validSurvivors s, e.cand = k) :
    ∃ t, exec (filterInstr p) s = .next t ∧ t.status.sovf = false ∧ Keeps p ⟨k, a⟩ s t := by
  obtain ⟨e, he, rfl⟩ := valid
  subst a
  have mem : ⟨e.cand, phaseCand p s s.pair1 e.cand⟩ ∈ (refiltered p s).list := mem_refilter he onPair3.symm
  have found : (refiltered p s).count ≠ 0 := Nat.ne_zero_of_lt (List.length_pos_of_mem mem)
  exact ⟨_, exec_filter phase fits, fits, finish_commit_keeps legal (refiltered_list_length_eq_min p s) found
    (filterCode_ne_inconclusive found) (fun _ => mem) fun _ => refiltered_count_le p s⟩

end

/-- Settles O26: on every pair of the keying the true S3 has the candidate S1. -/
theorem trueS3SurvivesPhase1 : Obligations.TrueS3SurvivesPhase1 := by
  intro s0 s1 s2 s3 s legal pair1
  constructor
  · intro pair2
    obtain ⟨hit, t, next, keeps⟩ := search_keeps_agreeing (p := .one) legal pair1.cand1_eq pair2.cand1_eq
    refine ⟨t, next, hit, keeps.count, keeps.conclusive, keeps.valid, fun one => ?_⟩
    rw [keeps.resolved one]
    exact ⟨rfl, rfl⟩
  · intro pair3 phase fits valid
    obtain ⟨t, next, fits', keeps⟩ :=
      filter_keeps_agreeing (p := .one) legal pair1.cand1_eq pair3.cand1_eq phase fits valid
    refine ⟨t, next, keeps.valid fits', keeps.conclusive, fun one => ?_⟩
    rw [keeps.resolved one]
    exact ⟨rfl, rfl⟩

/-- Settles O27: with the true S3 known, on every pair of the keying the true S2 has the candidate S0. -/
theorem trueS2SurvivesPhase2 : Obligations.TrueS2SurvivesPhase2 := by
  intro s0 s1 s2 s3 s legal pair1 known
  subst known
  constructor
  · intro pair2
    obtain ⟨hit, t, next, keeps⟩ := search_keeps_agreeing (p := .two) legal pair1.cand2_eq pair2.cand2_eq
    refine ⟨t, next, hit, keeps.count, keeps.conclusive, keeps.valid, fun one => ?_⟩
    rw [keeps.resolved one]
    exact ⟨rfl, rfl⟩
  · intro pair3 phase fits valid
    obtain ⟨t, next, fits', keeps⟩ :=
      filter_keeps_agreeing (p := .two) legal pair1.cand2_eq pair3.cand2_eq phase fits valid
    refine ⟨t, next, keeps.valid fits', keeps.conclusive, fun one => ?_⟩
    rw [keeps.resolved one]
    exact ⟨rfl, rfl⟩

end Sys2Proof.Machine
end

section
/-! PROOF. The control commands: NOP only completes (O6), and CLEAR leaves a block with no survivors and no search phase,
on which FILTER is refused until a SEARCH has run (O7). -/

namespace Sys2Proof.Machine

/-- Settles O6: the one effect of NOP leaves the state as it was, and the completion is `finish`. -/
theorem nopOnlyCompletes : Obligations.NopOnlyCompletes :=
  ⟨decode_encode .nop, fun _ => rfl⟩

/-! ### No survivors: the masked windows read 0 (10_state.md R45) -/

theorem validCount_of_no_survivors {s : State} (empty : s.survCount = 0#32) : validCount s = 0 := by
  rw [validCount, empty]
  exact Nat.zero_min _

theorem regValue_surv_of_no_survivors {s : State} (empty : s.survCount = 0#32) (n : Nat) :
    regValue (.survCand n) s = 0#32 ∧ regValue (.survPaired n) s = 0#32 := by
  have masked : ¬ n < validCount s := by
    rw [validCount_of_no_survivors empty]
    exact Nat.not_lt_zero n
  exact ⟨if_neg masked, if_neg masked⟩

/-! ### No phase: FILTER is refused, and only a SEARCH sets one (10_state.md R36) -/

theorem phaseNumber_ne_zero (p : Phase) : phaseNumber p ≠ 0#2 := by
  cases p <;> decide

theorem exec_filter_of_no_phase {s : State} (noPhase : s.status.sphase = 0#2) (p : Phase) :
    exec (filterInstr p) s = .next (finish (errorNumber .sequence) s) :=
  exec_filter_sequence fun phase => phaseNumber_ne_zero p (phase.symm.trans noPhase)

theorem Effect.search_of_phase_set {s u : State} {i : Instr} {c : BitVec 4} (h : Effect s i c u)
    (noPhase : s.status.sphase = 0#2) (set : u.status.sphase ≠ 0#2) : ∃ p, i = searchInstr p := by
  cases h with
  | search p => exact ⟨p, rfl⟩
  | clear => exact absurd rfl set
  | _ => exact absurd noPhase set

theorem writeReg_sphase (r : Reg) (v : Word) (s : State) : (writeReg r v s).status.sphase = s.status.sphase := by
  cases r <;> rfl

theorem busWrite_sphase (addr : Nat) (v : Word) (s : State) : (busWrite addr v s).status.sphase = s.status.sphase := by
  unfold busWrite
  split
  · rfl
  · split
    · exact writeReg_sphase _ v s
    · rfl

/-- Of all turns only the completion of a SEARCH takes SPHASE from 0 to a phase. -/
theorem step_search_of_phase_set {s t : State} (noPhase : s.status.sphase = 0#2) (h : step s = .next t)
    (set : t.status.sphase ≠ 0#2) : ∃ p, EngineNext s (encode (searchInstr p)) := by
  cases step_turn h with
  | illegal | quiet => exact absurd noPhase set
  | command i c u engine effect =>
    obtain ⟨p, rfl⟩ := effect.search_of_phase_set noPhase set
    exact ⟨p, engine⟩
  | write addr v => exact absurd ((busWrite_sphase addr v (passTurn s)).trans noPhase) set
  | reset => exact absurd rfl set

/-- Settles O7: CLEAR leaves SURV_COUNT 0, which masks every entry, and SPHASE 0, on which FILTER is refused; and of the
turns only a SEARCH's sets a phase again. -/
theorem clearResetsSearchState : Obligations.ClearResetsSearchState := by
  refine ⟨decode_encode .clear, fun s => ⟨finish 0x0#4 (clearSearch s), rfl, rfl, ?_, ?_⟩, ?_⟩
  · exact regValue_surv_of_no_survivors rfl
  · intro i hi
    obtain rfl | rfl := List.mem_pair.1 hi
    · exact ⟨_, exec_filter_of_no_phase rfl .one, rfl⟩
    · exact ⟨_, exec_filter_of_no_phase rfl .two, rfl⟩
  · intro s t noPhase h set
    obtain ⟨p, engine⟩ := step_search_of_phase_set noPhase h set
    cases p with
    | one => exact .inl engine
    | two => exact .inr engine

end Sys2Proof.Machine
end

section
/-! PROOF. The codes a command reports, in its own check order (O9), what no survivor (O37) and several survivors (O38)
leave, and the interrupt that every completion raises (O44): the block's exceptions, by 60_exceptions.md. -/

namespace Sys2Proof.Machine

/-! ### The codes -/

/-- KEYSET checks ROUNDS and nothing else (40_cipher.md R113). -/
theorem exec_keyset_errcode (s : State) : ∃ t : State, exec .keyset s = .next t ∧
    t.status.errcode = if s.params.rMax < s.rounds.toNat then 0x3#4 else 0x0#4 := by
  by_cases tooMany : s.params.rMax < s.rounds.toNat
  · exact ⟨_, exec_keyset_tooMany tooMany, (if_pos tooMany).symm⟩
  · exact ⟨_, exec_keyset_inRange (Nat.not_lt.1 tooMany), (if_neg tooMany).symm⟩

/-- ENCRYPT and DECRYPT check KEYED and nothing else (R117 to R119). -/
theorem cipherCommand_errcode (f : (Nat → Word) → Nat → Block → Block) (s : State) :
    (cipherCommand f s).status.errcode = if s.status.keyed = false then 0x2#4 else 0x0#4 := by
  cases keyed : s.status.keyed with
  | false => rw [cipherCommand_of_unkeyed keyed]; rfl
  | true => rw [cipherCommand_of_keyed keyed]; rfl

/-- A SEARCH ends by the number of words it found (41_search.md R135, R137). -/
theorem exec_search_errcode (p : Phase) (s : State) : ∃ t : State, exec (searchInstr p) s = .next t ∧
    t.status.errcode =
      if (phaseHits p s).length = 0 then 0x4#4 else if s.params.survMax < (phaseHits p s).length then 0x6#4
      else 0x0#4 := by
  refine ⟨_, exec_search p s, ?_⟩
  rw [← swept_count]
  rfl

/-- The valid survivors that a FILTER of phase p leaves, as they stand in the buffer before it (R136, R138). -/
def survivorsLeft (p : Phase) (s : State) : List Survivor :=
  (validSurvivors s).filter fun e => decide (phaseCand p s s.pair1 e.cand = phaseCand p s s.pair3 e.cand)

theorem keptSurvivors_eq_map_left (p : Phase) (s : State) :
    keptSurvivors p s = (survivorsLeft p s).map fun e => ⟨e.cand, phaseCand p s s.pair1 e.cand⟩ :=
  rfl

theorem keptSurvivors_length (p : Phase) (s : State) : (keptSurvivors p s).length = (survivorsLeft p s).length :=
  List.length_map _

/-- A FILTER checks its preconditions in their order and then ends by the number of survivors left (R145). -/
theorem exec_filter_errcode (p : Phase) (s : State) : ∃ t : State, exec (filterInstr p) s = .next t ∧
    t.status.errcode =
      if s.status.sphase ≠ phaseNumber p then 0x7#4 else if s.status.sovf = true then 0x6#4
      else if (survivorsLeft p s).length = 0 then 0x4#4 else if 2 ≤ (survivorsLeft p s).length then 0x5#4
      else 0x0#4 := by
  by_cases phase : s.status.sphase = phaseNumber p
  · rw [if_neg (not_not.2 phase)]
    cases sovf : s.status.sovf with
    | true => exact ⟨_, exec_filter_overflowed phase sovf, rfl⟩
    | false =>
      refine ⟨_, exec_filter_kept phase sovf, ?_⟩
      rw [← keptSurvivors_length]
      rfl
  · exact ⟨_, exec_filter_sequence phase, (if_pos phase).symm⟩

/-- Settles O9: each command's own checks decide its code, and a word that is no command has E_ILLEGAL alone. -/
theorem oneCodeInCheckOrder : Obligations.OneCodeInCheckOrder := by
  intro s
  refine ⟨?_, ?_, exec_keyset_errcode s, ?_, exec_search_errcode .one s, exec_search_errcode .two s,
    exec_filter_errcode .one s, exec_filter_errcode .two s⟩
  · intro w noCommand
    cases decoded : decode w with
    | ok i => exact absurd decoded (noCommand i)
    | error e => exact ⟨_, perform_illegal ⟨e, decoded⟩ s, rfl⟩
  · intro i hi
    obtain rfl | rfl := List.mem_pair.1 hi
    · exact ⟨_, rfl, rfl⟩
    · exact ⟨_, rfl, rfl⟩
  · intro i hi
    obtain rfl | rfl := List.mem_pair.1 hi
    · exact ⟨_, rfl, cipherCommand_errcode encryptBlock s⟩
    · exact ⟨_, rfl, cipherCommand_errcode decryptBlock s⟩

/-! ### No survivor -/

theorem foundOf_nil (cap : Nat) (f : Word → Word) : foundOf cap f [] = { count := 0, list := [] } := by
  rw [foundOf, List.take_nil]
  rfl

theorem survivorsLeft_eq_nil {p : Phase} {s : State}
    (none : ∀ e ∈ validSurvivors s, phaseCand p s s.pair1 e.cand ≠ phaseCand p s s.pair3 e.cand) :
    survivorsLeft p s = [] :=
  List.filter_eq_nil_iff.2 fun e he agree => none e he (of_decide_eq_true agree)

/-- A FILTER that leaves no survivor writes no RES register (60_exceptions.md R176). -/
theorem filterInstr_inconclusive {p : Phase} {s : State} (phase : s.status.sphase = phaseNumber p)
    (fits : s.status.sovf = false)
    (none : ∀ e ∈ validSurvivors s, phaseCand p s s.pair1 e.cand ≠ phaseCand p s s.pair3 e.cand) :
    ∃ t : State, exec (filterInstr p) s = .next t ∧ t.status.errcode = 0x4#4 ∧ t.survCount = 0#32 ∧
      t.status.resolved = false ∧ t.res = s.res := by
  refine ⟨_, exec_filter_kept phase fits, ?_⟩
  rw [keptSurvivors_eq_map_left, survivorsLeft_eq_nil none]
  exact ⟨rfl, rfl, rfl, rfl⟩

/-- A SEARCH that finds no word writes no RES register, and there is nothing a later FILTER could keep (R176). -/
theorem searchInstr_inconclusive {p : Phase} {s : State} (none : phaseHits p s = []) (q : Pair) :
    ∃ t u : State, exec (searchInstr p) s = .next t ∧ t.status.errcode = 0x4#4 ∧ t.survCount = 0#32 ∧
      t.status.resolved = false ∧ t.res = s.res ∧
      exec (filterInstr p) { t with pair3 := q } = .next u ∧ u.status.errcode = 0x4#4 := by
  have search := exec_search_hits p s
  rw [none, foundOf_nil] at search
  obtain ⟨-, -, empty⟩ := filterInstr_preconditions p
    { finish 0x4#4 (commit p { count := 0, list := [] } true s) with pair3 := q }
  obtain ⟨u, filter, code, -⟩ := empty rfl (decide_eq_false (Nat.not_lt_zero s.params.survMax)) rfl
  exact ⟨_, u, search, rfl, rfl, rfl, rfl, filter, code⟩

/-- Settles O37: none found or none left, and in both cases the commit of no survivor leaves RES. -/
theorem inconclusiveLeavesResults : Obligations.InconclusiveLeavesResults := by
  refine ⟨?_, ?_, ?_, ?_⟩
  · intro s q _ none
    exact searchInstr_inconclusive (p := .one) none q
  · intro s q _ none
    exact searchInstr_inconclusive (p := .two) none q
  · intro s phase fits none
    exact filterInstr_inconclusive (p := .one) phase fits none
  · intro s phase fits none
    exact filterInstr_inconclusive (p := .two) phase fits none

/-! ### Several survivors -/

/-- After a FILTER exactly the survivors kept are valid: they are no more than were valid before (10_state.md R45). -/
theorem commit_refiltered_validSurvivors (p : Phase) (s : State) :
    validSurvivors (commit p (refiltered p s) false s) = (refiltered p s).list := by
  have room := refiltered_count_le p s
  have small : (refiltered p s).count ≤ 0xFFFFFFFF := by
    rw [refiltered_eq_kept]
    exact keptSurvivors_length_le p s
  rw [commit_validSurvivors p false (Nat.min_le_left _ _), commit_validCount, Nat.min_eq_left small,
    Nat.min_eq_left room]
  exact List.take_length

/-- A FILTER that leaves several survivors keeps them valid and its own preconditions true (60_exceptions.md R177). -/
theorem filterInstr_ambiguous {p : Phase} {s : State} (phase : s.status.sphase = phaseNumber p)
    (fits : s.status.sovf = false) (several : 2 ≤ (survivorsLeft p s).length) :
    ∃ t : State, exec (filterInstr p) s = .next t ∧ t.status.errcode = 0x5#4 ∧
      validSurvivors t = (survivorsLeft p s).map (fun e => ⟨e.cand, phaseCand p s s.pair1 e.cand⟩) ∧
      t.survCount.toNat = (survivorsLeft p s).length ∧ t.res = s.res ∧ t.status.resolved = false ∧
      t.status.sphase = phaseNumber p ∧ t.status.sovf = false := by
  have count : (refiltered p s).count = (survivorsLeft p s).length := by
    rw [refiltered_eq_kept, keptSurvivors_length]
  have small := keptSurvivors_length_le p s
  rw [keptSurvivors_length] at small
  have notOne : (refiltered p s).count ≠ 1 := by omega
  refine ⟨_, exec_filter phase fits, ?_, ?_, ?_, resultOf_of_count_ne_one notOne p s.res, decide_eq_false notOne,
    phase, fits⟩
  · exact (if_neg (by omega)).trans (if_pos (by omega))
  · calc validSurvivors (commit p (refiltered p s) false s)
        = (refiltered p s).list := commit_refiltered_validSurvivors p s
      _ = keptSurvivors p s := by rw [refiltered_eq_kept]
  · rw [finish_survCount, commit_survCount, toNat_saturated, count]
    exact Nat.min_eq_left small

/-- Settles O38: a commit of several survivors writes neither RES nor, in a FILTER, SPHASE and SOVF. -/
theorem ambiguousKeepsSurvivors : Obligations.AmbiguousKeepsSurvivors :=
  ⟨fun _ phase fits several => filterInstr_ambiguous (p := .one) phase fits several,
    fun _ phase fits several => filterInstr_ambiguous (p := .two) phase fits several⟩

/-! ### The interrupt -/

theorem irq_finish (c : BitVec 4) (s : State) : irq (finish c s) = s.doneIe := by
  rw [irq, finish_status, finish_doneIe, Bool.true_and]

/-- Every completion raises the interrupt where it is enabled, errors included (60_exceptions.md R184). -/
theorem perform_irq {w : Word} {s t : State} (h : perform w s = .next t) : irq t = s.doneIe := by
  obtain rfl | ⟨i, c, u, -, effect, rfl⟩ := perform_effect h
  · exact irq_finish _ s
  · obtain ⟨doneIe, -⟩ := effect.operands
    rw [irq_finish, doneIe]

theorem irq_of_not_done {s : State} (h : s.status.done = false) : irq s = false := by
  rw [irq, h, Bool.false_and]

theorem irq_of_disabled {s : State} (h : s.doneIe = false) : irq s = false := by
  rw [irq, h, Bool.and_false]

/-- Settles O44: a completion sets DONE and leaves INT_EN; the ways to drop the interrupt clear one of the two. -/
theorem interruptFollowsDone : Obligations.InterruptFollowsDone := by
  refine ⟨?_, ?_, ?_, ?_, ?_, ?_⟩
  · intro s
    obtain ⟨-, -, -, -, -, -, -, bit7, level, -⟩ := statusWordLayout.2 s
    exact ⟨level, bit7⟩
  · intro s w engine
    obtain ⟨t, ht⟩ := perform_next w s
    exact ⟨t, (step_engine engine).trans ht, perform_irq ht⟩
  · intro s v idle bit1
    rw [show busWrite 0x00C v s = writeStatus v s from busWrite_named (r := .status) (by decide) idle v]
    refine irq_of_not_done ?_
    rw [writeStatus_status, bit1, Bool.not_true, Bool.and_false]
  · intro s v idle bit0
    rw [show busWrite 0x010 v s = writeIntEn v s from busWrite_named (r := .intEn) (by decide) idle v]
    exact irq_of_disabled bit0
  · intro s v idle
    rw [show busWrite 0x008 v s = accept v s from busWrite_named (r := .cmd) (by decide) idle v]
    exact irq_of_not_done rfl
  · exact fun _ => irq_of_not_done rfl

end Sys2Proof.Machine
end

section
/-! PROOF. Reset and progress (70_reset_and_hazards.md): what asserting reset leaves (O52), the block right after reset and
its first KEYSET (O53), and that a pending command is performed when its latency is over (O55). -/

namespace Sys2Proof.Machine

/-! ### Register values after reset (R200, R202) -/

theorem regValue_subkey_of_unkeyed {s : State} (unkeyed : s.status.keyed = false) (m : Nat) :
    regValue (.subkey m) s = 0#32 :=
  if_neg fun shown => Bool.eq_false_iff.1 unkeyed shown.1

/-- ID and PARAMS are the only registers whose reset value is not 0 (10_state.md R23 to R25, R50). -/
theorem regValue_resetWith {r : Reg} (notId : r ≠ .id) (notParams : r ≠ .params) (c : Params) :
    regValue r (State.resetWith c) = 0#32 := by
  cases r with
  | id => exact absurd rfl notId
  | params => exact absurd rfl notParams
  | status =>
    -- STATUS has no part that depends on the parameters, so the default block shows its value.
    exact show statusWord State.reset = 0#32 by decide
  | survCand n => exact (regValue_surv_of_no_survivors rfl n).1
  | survPaired n => exact (regValue_surv_of_no_survivors rfl n).2
  | subkey m => exact regValue_subkey_of_unkeyed rfl m
  | _ => rfl

/-- The free words that a reset leaves in the storage arrays are masked (R50, R200). -/
theorem regValue_resetBlock (r : Reg) (s : State) :
    regValue r (resetBlock s) = regValue r (State.resetWith s.params) := by
  cases r with
  | survCand n => exact (regValue_surv_of_no_survivors rfl n).1.trans (regValue_surv_of_no_survivors rfl n).1.symm
  | survPaired n => exact (regValue_surv_of_no_survivors rfl n).2.trans (regValue_surv_of_no_survivors rfl n).2.symm
  | subkey m => exact (regValue_subkey_of_unkeyed rfl m).trans (regValue_subkey_of_unkeyed rfl m).symm
  | _ => rfl

/-! ### What takes a pending command away (R200, R201) -/

/-- Settles O52: of the turns only the engine's and the reset write PEND while a command is pending, and the masks hide
what a reset leaves in storage. -/
theorem resetInputRestoresReset : Obligations.ResetInputRestoresReset := by
  constructor
  · intro s t h busy changed
    cases step_turn h with
    | illegal w engine => exact .inl ⟨w, engine⟩
    | command i c u engine => exact .inl ⟨encode i, engine⟩
    | quiet => exact absurd rfl changed
    | write addr v => exact absurd (busWrite_pend (s := passTurn s) (.inr busy) v) changed
    | reset host => exact .inr host
  · intro s host
    have value (r : Reg) : regValue r (resetBlock (passTurn s)) = regValue r (State.resetWith s.params) :=
      regValue_resetBlock r (passTurn s)
    have zero {r : Reg} (notId : r ≠ .id) (notParams : r ≠ .params) : regValue r (resetBlock (passTurn s)) = 0#32 :=
      (value r).trans (regValue_resetWith notId notParams _)
    exact ⟨_, step_host host, rfl, rfl, rfl, zero nofun nofun, irq_of_not_done rfl, value,
      fun _ => ⟨zero nofun nofun, zero nofun nofun, zero nofun nofun⟩⟩

/-! ### The first KEYSET (R203) -/

theorem keyset_loads {s : State} (inRange : s.rounds.toNat ≤ s.params.rMax) :
    ∃ t : State, exec .keyset s = .next t ∧ t.rAct = s.rounds.toNat ∧ t.status.keyed = true ∧
      t.status.errcode = 0x0#4 ∧ t.subkeyRam.take (2 * (s.rounds.toNat + 1)) = expansion s :=
  ⟨_, exec_keyset_inRange inRange, rfl, rfl, rfl, List.take_left' (expansion_length s)⟩

/-- Settles O53: every register but ID and PARAMS is 0, so a KEYSET finds the zero key and the ROUNDS written, if any. -/
theorem resetStateAndFirstKeyset : Obligations.ResetStateAndFirstKeyset := by
  refine ⟨rfl, rfl, fun c legal => ⟨fun r notId notParams => regValue_resetWith notId notParams c, rfl, rfl, rfl, rfl,
    rfl, rfl, rfl, rfl, fun v => ?_, ?_, ?_⟩⟩
  · exact congrArg State.pend (busWrite_named (r := .cmd) (s := State.resetWith c) (by decide) rfl v)
  · exact keyset_loads (s := State.resetWith c) (Nat.zero_le _)
  · rw [show busWrite 0x014 1#32 (State.resetWith c) = writeReg .rounds 1#32 (State.resetWith c) from
      busWrite_named (r := .rounds) (by decide) rfl 1#32]
    have inRange : 1 ≤ c.rMax := Nat.le_trans (by decide) legal.rMax_ge
    exact keyset_loads (s := writeReg .rounds 1#32 (State.resetWith c)) inRange

/-! ### The host's turns while a command is pending (20_memory.md R68, R70, R77) -/

/-- An operation that cannot fault the host and is no reset: a supported access, a WAIT or an idle turn. -/
def Unfailing (op : HostOp) : Prop := op.wf = true ∧ op ≠ .reset ∧ ∀ addr mask want, op ≠ .check addr mask want

/-- The block's own state is the same in both but for OVERRUN. -/
def SameButOverrun (s t : State) : Prop :=
  { t with env := s.env, status := { t.status with overrun := s.status.overrun } } = s

theorem SameBlock.sameButOverrun {s t : State} (h : SameBlock s t) : SameButOverrun s t :=
  (congrArg (fun u : State => { u with status := { u.status with overrun := s.status.overrun } }) h :)

theorem SameButOverrun.pend {s t : State} (h : SameButOverrun s t) : t.pend = s.pend :=
  (congrArg State.pend h :)

theorem SameButOverrun.trans {s t u : State} (hst : SameButOverrun s t) (htu : SameButOverrun t u) :
    SameButOverrun s u := by
  rw [SameButOverrun] at htu
  rw [← htu] at hst
  exact hst

/-- What an unfailing operation does to a busy block: it is answered, a write is dropped, and a WAIT stays at the head of
the host's list (20_memory.md R68, R70; 30_encoding.md R89). -/
theorem hostOp_busy {op : HostOp} (unfailing : Unfailing op) {s : State} (busy : s.pend ≠ none) :
    ∃ u : State, hostOp op s = .next u ∧ SameButOverrun s u ∧ u.env.wait = s.env.wait ∧
      (u.env.hostOps = s.env.hostOps ∨ u.env.hostOps = op :: s.env.hostOps) := by
  obtain ⟨wf, notReset, notCheck⟩ := unfailing
  cases op with
  | read addr width =>
    have supported := (accessWf_iff_accessFault addr width).1 wf
    refine ⟨busRead addr s, ?_, SameBlock.sameButOverrun (busRead_block addr s), busRead_wait addr s,
      .inl (busRead_hostOps addr s)⟩
    rw [hostOp, hostRead, supported]
  | write addr width v =>
    have supported := (accessWf_iff_accessFault addr width).1 wf
    refine ⟨{ s with status := { s.status with overrun := true } }, ?_, rfl, rfl, .inl rfl⟩
    rw [hostOp, hostWrite, supported, busWrite_busy ((busyBit_eq_true_iff s).2 busy)]
  | waitIdle =>
    refine ⟨_, hostWait_eq s, (SameBlock.busRead (sameBlock_withEnv s _) _).sameButOverrun, busRead_wait _ _, .inr ?_⟩
    rw [busRead_hostOps]
    exact if_neg busy
  | idle => exact ⟨s, rfl, rfl, rfl, .inl rfl⟩
  | check addr mask want => exact absurd rfl (notCheck addr mask want)
  | reset => exact absurd rfl notReset

/-- One host turn of a pending command's latency passes: what the host does in the turns left it did before. -/
theorem step_busy {s : State} {n : Nat} (busy : s.pend ≠ none) (left : s.env.wait = n + 1)
    (unfailing : ∀ op ∈ s.env.hostOps.take (n + 1), Unfailing op) :
    ∃ u : State, step s = .next u ∧ SameButOverrun s u ∧ u.env.wait = n ∧
      ∀ op ∈ u.env.hostOps.take n, Unfailing op := by
  have turn : engineReady s = none := (engineReady_eq_none_iff s).2 (.inr (left ▸ Nat.succ_ne_zero n))
  have counted : (passTurn s).env.wait = n := by rw [passTurn_env, left, Nat.add_sub_cancel]
  cases ops : s.env.hostOps with
  | nil =>
    refine ⟨passTurn s, ?_, rfl, counted, ?_⟩
    · rw [step, turn, hostTurn, ops]
    · rw [passTurn_env, ops, List.tail_nil, List.take_nil]
      exact nofun
  | cons op rest =>
    rw [ops] at unfailing
    have host : HostNext s op := ⟨turn, by rw [ops, List.head?_cons]⟩
    have passed : (passTurn s).env.hostOps = rest := by rw [passTurn_env, ops, List.tail_cons]
    obtain ⟨u, answered, same, wait, list⟩ := hostOp_busy (unfailing op List.mem_cons_self) (s := passTurn s) busy
    have same : SameButOverrun s u := SameButOverrun.trans (t := passTurn s) rfl same
    refine ⟨u, (step_host host).trans answered, same, wait.trans counted, fun next mem => unfailing next ?_⟩
    rw [passed] at list
    obtain list | list := list
    · exact List.mem_cons_of_mem op (list ▸ mem)
    · exact List.take_subset_take_left _ (Nat.le_succ n) (list ▸ mem)

/-! ### Progress (70_reset_and_hazards.md R216) -/

/-- The latency of a pending command passes, and the engine has the turn with the same command. -/
theorem run_latency {w : Word} {n : Nat} {s : State} (pending : s.pend = some w) (left : s.env.wait = n)
    (unfailing : ∀ op ∈ s.env.hostOps.take n, Unfailing op) :
    ∃ u : State, core.run n s = .next u ∧ EngineNext u w ∧ SameButOverrun s u := by
  induction n generalizing s with
  | zero => exact ⟨s, rfl, ⟨pending, left⟩, rfl⟩
  | succ n ih =>
    obtain ⟨t, ht, same, left', unfailing'⟩ := step_busy (pending ▸ Option.some_ne_none w) left unfailing
    obtain ⟨u, hu, engine, same'⟩ := ih (same.pend.trans pending) left' unfailing'
    exact ⟨u, (run_succ_of_next core n s t ht).trans hu, engine, same.trans same'⟩

/-- A run of one step more ends with the step from where the run ended. -/
theorem run_succ_last {M : Host.Core} {k : Nat} {s u t : M.State} (h : M.run k s = .next u) (last : M.step u = .next t) :
    M.run (k + 1) s = .next t := by
  induction k generalizing s with
  | zero =>
    cases h
    exact run_succ_of_next M 0 _ t last
  | succ k ih =>
    obtain ⟨v, hv, rest⟩ := run_succ_cases h
    exact (run_succ_of_next M (k + 1) s v hv).trans (ih rest)

/-- Settles O55: each host turn of the latency keeps the block but for OVERRUN, and then the engine completes. -/
theorem pendingCommandCompletes : Obligations.PendingCommandCompletes := by
  intro s w pending unfailing
  obtain ⟨u, run, engine, same⟩ := run_latency pending rfl unfailing
  obtain ⟨-, completes, -⟩ := everyCommandWordCompletes
  obtain ⟨t, ht, -, idle, done, -⟩ := completes u w engine
  exact ⟨u, t, run, engine, same, run_succ_last (M := core) run ht, (step_engine engine).symm.trans ht, idle, done⟩

end Sys2Proof.Machine
end
